-- ==== Sys2Proof/Word.lean ====
section
/-!
DEFINITION. The word types the manual uses as bits: bytes, FP32 words, the 512-bit and 256-bit field maps of R4.
-/
namespace Sys2Proof

/-- One byte of a buffer or a message. -/
abbrev Byte := BitVec 8

/-- An FP32 value as the word that carries it (R65). -/
abbrev F32 := BitVec 32

/-- TIME64 in nanoseconds (R5). The manual states that the count does not wrap in service, so it is a natural number. -/
abbrev Time := Nat

end Sys2Proof
end

