-- ==== Sys2Proof/Syntax.lean ====
section
/-!
DEFINITION. The commands of the opcode table, one constructor of `Instr` per row, and the types of their operands.
Words that the manual gives by a field map are carried as one bit vector of the map's width (R4); the accessors of
Machine/Operands.lean read the fields.
-/
namespace Sys2Proof

/-- Status codes of R331. -/
inductive Status where
  | done | partDone | shortList | filterShort | stoppedString | stoppedLength | stoppedToken
  | refusedCapacity | lengthExceeds | fieldReserved | stateConflict | unknownObject | accessDenied | versionStale
  | withdrawn | late | recovered | failedOver | internalFault
  deriving DecidableEq, Repr

/-- The transports of R338. -/
inductive Transport where
  | can | pcie | etnan
  deriving DecidableEq, Repr

/-- A ring of one function (R313). -/
inductive RingSel where
  | sub (r : Nat) | cpl | sbr
  deriving DecidableEq, Repr

/-- Who signed an image, a firmware set or a token (R419..R422, R428); `owner k` is key `k` of the owner's list. -/
inductive Signer where
  | none | development | debugKey | manufacturing | owner (k : Nat) | root (k : Nat)
  deriving DecidableEq, Repr

/-- Element formats that an array takes (R60, R65). -/
inductive ElemFmt where
  | bf16 | int8 | e4m3 | e5m2 | e3m2 | e2m3 | e2m1
  deriving DecidableEq, Repr

/-- A descriptor as fetched, with the buffer list it names in LIST mode (R319, R320). -/
structure Fetched where
  desc : BitVec 512
  list : List (BitVec 128) := []
  deriving DecidableEq, Repr

/-- Payload parts of the serving requests, in the order of R208, as the descriptor's lengths cut them from its bytes; a part a
request does not carry is empty or zero. -/
structure Payload where
  retr    : BitVec 256 := 0
  filters : List (BitVec 128) := []
  rank    : BitVec 512 := 0
  gen     : BitVec 512 := 0
  opts    : BitVec 256 := 0
  stops   : List (BitVec 320) := []
  sketch  : List Byte := []
  text    : List (List Byte) := []
  prompt  : List (BitVec 32) := []
  vec     : List Byte := []
  ids     : List (BitVec 64) := []
  deriving DecidableEq, Repr

/-- Payload of TABLE_GATHER (R245, R246). -/
structure GatherPayload where
  blk     : BitVec 512
  lens    : List (BitVec 32)
  rows    : List (BitVec 64)
  weights : List F32 := []
  deriving DecidableEq, Repr

/-- Payload of TABLE_UPDATE (R256). -/
structure UpdatePayload where
  blk     : BitVec 128
  entries : List (BitVec 64 × List F32)
  deriving DecidableEq, Repr

/-- What MODEL_LOAD looks at in one array operation of a plan (R60, R70, R93, R383). -/
structure PlanOp where
  fmtA        : ElemFmt
  fmtB        : ElemFmt
  reduction   : Nat
  transposeMx : Bool := false
  longLived   : Bool := false
  deriving DecidableEq, Repr

/-- Memory tiers that a plan addresses (R86): cell stores, block scratch, region stores, the request pool of a die, the
parity-protected image area of a die (data offsets, R102), hub SRAM. -/
inductive Tier where
  | cell | block | region | pool | image | hub
  deriving DecidableEq, Repr

/-- A place in a tier: the unit (cell ordinal, global block, global region, die; 0 for hub SRAM) and a byte offset in it. -/
structure Place where
  tier : Tier
  unit : Nat
  off  : Nat
  deriving DecidableEq, Repr

/-- Operations of the tile mover (R92): `tile` is COPY with decompression. -/
inductive MoveKind where
  | copy | tile | transpose | fill | parity
  deriving DecidableEq, Repr

/-- A copy of a plan (R92, R96). `len` counts the bytes of a COPY, FILL or PARITY WRITE; a tile's header gives its own. -/
structure PlanCopy where
  kind    : MoveKind
  src     : Place
  dst     : Place
  len     : Nat := 0
  pattern : BitVec 32 := 0
  deriving DecidableEq, Repr

/-- A layer of a plan: its slices' handshakes per batch, the logical cells they name as a mask (R381), the copies its slices
consume, the prefetch distance D (R96). -/
structure PlanLayer where
  slices : List Nat
  cells  : BitVec 16 := 0xFFFF
  copies : List PlanCopy := []
  dist   : Nat := 0
  deriving DecidableEq, Repr

/-- A resident weight tile (R87): the cell ordinal and offset that the plan gives it, header and stored body. -/
structure PlanTile where
  cell   : Nat
  off    : Nat
  header : BitVec 128
  body   : List Byte
  deriving DecidableEq, Repr

/-- A rotation (R115): L rows of D / 32 blocks in MXFP8, each a scale byte and 32 elements; from the plan its format, that of the
streamed embedding, and ANCHOR_BASE. -/
structure Rotation where
  id     : Nat
  fmt    : ElemFmt := .e4m3
  stream : ElemFmt := .e4m3
  base   : Int := 0
  rows   : List (List (Nat × List Nat)) := []
  deriving DecidableEq, Repr

/-- Signed header of a model image (R40, R211) and the plan figures the module acts upon (R9). -/
structure ModelImage where
  modelId      : Nat
  kind         : Nat
  resident     : Bool
  vocab        : Nat
  contextMax   : Nat
  draftId      : Nat := 0
  specDepthMax : Nat := 1
  batchRows    : Nat := 1
  cellBytes    : Nat := 0
  imageBytes   : Nat := 0
  endCount     : Nat := 0
  endTokens    : List (BitVec 32) := []
  logitNorm    : F32 := 0
  embedDim     : Nat := 0
  tMinHs       : Nat := 0
  hStep        : Nat := 0
  hTok         : Nat := 0
  hCtx         : Nat := 0
  hPre         : Nat := 0
  kvTok        : Nat := 0
  wStep        : Nat := 0
  sliceHs      : Nat := 0
  ops          : List PlanOp := []
  rotations    : List Nat := []
  matrices     : List Rotation := []
  queryMax     : Nat := 0
  features     : List (Nat × Bool) := []
  regionBytes  : Nat := 0
  blockBytes   : Nat := 0
  layers       : List PlanLayer := []
  tiles        : List PlanTile := []
  split        : List (List Nat) := []
  xSteps       : Nat := 0
  deriving DecidableEq, Repr

/-- Vocabulary image (R174..R176); `slots` lists the pair table's non-zero slots by slot number. -/
structure VocabImage where
  vocabId    : Nat
  tokenCount : Nat
  poolBytes  : Nat
  pairBits   : Nat
  maxProbe   : Nat
  splitMode  : Nat
  replId     : Nat
  byteMap    : List Nat
  ids        : List (BitVec 64)
  bytes      : List Byte
  slots      : List (Nat × BitVec 128)
  deriving DecidableEq, Repr

/-- Template image (R161, R162); `body` holds the stored token fields. -/
structure TemplateImage where
  templateId : Nat
  vocab      : Nat
  segCount   : Nat
  fixedTok   : Nat
  returnRetr : Bool
  segs       : List (BitVec 64)
  body       : List (BitVec 32)
  deriving DecidableEq, Repr

/-- Constraint list (R194, R195); `length` is the object's length in bytes. -/
structure ConstraintImage where
  header  : BitVec 128
  entries : List (BitVec 576)
  length  : Nat
  deriving DecidableEq, Repr

/-- A sketch record: sketch as an integer of L bits and attribute block (R110, R112). -/
structure SketchRec where
  ord    : Nat
  sketch : Nat
  attr   : BitVec 256
  deriving DecidableEq, Repr

/-- A vector record (R145). -/
structure VecRec where
  ord    : Nat
  header : BitVec 128
  elems  : List Byte
  heads  : List (BitVec 32)
  deriving DecidableEq, Repr

/-- A passage record (R146). -/
structure PassageRec where
  ord    : Nat
  header : BitVec 128
  tokens : List (BitVec 32)
  deriving DecidableEq, Repr

/-- Index image (R114, R144); records that are not listed have LIVE 0, or are absent from the vector or passage store. -/
structure IndexImage where
  format      : Nat
  shardId     : Nat
  recordCount : Nat
  version     : Nat
  rotationId  : Nat
  groupId     : Nat := 0
  member      : Nat := 0
  members     : Nat := 1
  periodUs    : Nat := 0
  origin      : Time := 0
  lcQuota     : List Nat := []
  shardMap    : List Nat := []
  memberIds   : List Nat := []
  shardCounts : List (Nat × Nat) := []
  vecDim      : Nat := 1
  qscale      : F32 := 0x3F800000#32
  headTokens  : Nat := 0
  passageMax  : Nat := 1
  passageVocab : Nat := 0
  ceImage     : Nat := 0
  records     : List SketchRec := []
  vectors     : List VecRec := []
  passages    : List PassageRec := []
  deriving DecidableEq, Repr

/-- A pool row: element words and, for MXFP8, scale bytes (R241). -/
structure RowVal where
  elems  : List Nat
  scales : List Nat := []
  deriving DecidableEq, Repr

/-- Table descriptor (R240). -/
structure TableDesc where
  tableId   : Nat
  version   : Nat
  rowCount  : Nat
  dim       : Nat
  format    : Nat
  subfmt    : Nat
  trainable : Bool
  default   : RowVal
  deriving DecidableEq, Repr

/-- A table part: descriptor and the rows it brings (R264). -/
structure TableImage where
  desc : TableDesc
  rows : List (Nat × RowVal)
  deriving DecidableEq, Repr

/-- Range map image (R243). -/
structure MapImage where
  epoch  : Nat
  descs  : List TableDesc
  ranges : List (BitVec 256)
  deriving DecidableEq, Repr

/-- The kinds of image that a loading command can carry or name. -/
inductive Image where
  | model (m : ModelImage)
  | vocab (v : VocabImage)
  | template (m : TemplateImage)
  | clist (c : ConstraintImage)
  | index (i : IndexImage)
  | table (m : TableImage)
  | rangeMap (m : MapImage)
  deriving DecidableEq, Repr

/-- An image with what GD finds when it verifies it (R422). -/
structure SignedImage where
  img      : Image
  signer   : Signer
  digestOk : Bool
  digest   : Nat
  bytes    : Nat
  deriving DecidableEq, Repr

/-- Payload of MODEL_LOAD, MODEL_SWAP, INDEX_PUBLISH: the block of R235 and, from host memory, the image. -/
structure LoadPayload where
  blk   : BitVec 256
  image : Option SignedImage := none
  deriving DecidableEq, Repr

/-- Payload of TABLE_PUBLISH (R263); `space` is the free lend space in bytes that the new home of a MIGRATE reports (R262). -/
structure PublishPayload where
  blk   : BitVec 512
  image : Option SignedImage := none
  space : Nat := 512000000000
  deriving DecidableEq, Repr

/-- A dictionary PDU as it reaches the hub (R338, R341): `data` holds the bytes after the header in its frame or window,
`waiting` counts the PDUs queued on its transport when it arrives, `ident` is the CAN FD identifier. -/
structure Pdu where
  transport : Transport
  channel   : Nat
  header    : BitVec 128
  data      : List Byte := []
  waiting   : Nat := 0
  ident     : Nat := 0
  deriving DecidableEq, Repr

/-- Formats of final rounding (R74). -/
inductive OutFmt where
  | fp32 | bf16 | int32
  deriving DecidableEq, Repr

/-- Where partials meet (R73): block dispatcher, region steward, die ring. -/
inductive ReduceAt where
  | block | region | die
  deriving DecidableEq, Repr

/-- Elementwise operations of the vector lane (R79). -/
inductive LaneFn where
  | add | mul | fma | min | max | lt | le | eq
  | bfAdd | bfMul | bfFma | toBf16 | toFp32 | fromInt8
  | exp2 | log2 | rsqrt | recip | tanh | sigmoid | gelu | silu
  deriving DecidableEq, Repr

/-- One step of a slice's plan on its block. `cell` is a logical cell 0..15 of that block; `arr` is the array, 0 in full mode,
0..3 in split mode; offsets without a place are in that cell's store. -/
inductive SliceOp where
  /-- Full or split mode (R63). -/
  | mode (cell : Nat) (split : Bool)
  /-- The block dispatcher writes bytes into a cell store, or takes results out of it (R58, R64). -/
  | put (cell off : Nat) (src : Place) (len : Nat)
  | get (cell off : Nat) (dst : Place) (len : Nat)
  /-- The loader writes the shadow tile from the tile whose header the sequencer holds (R62, R88). -/
  | load (cell arr tile : Nat)
  /-- The shadow tile becomes the active one (R62). -/
  | switch (cell arr : Nat)
  /-- The dispatcher refills the row ring with `n` rows of a strip of `k` elements each, with their side vector (R64, R90). -/
  | refill (cell arr : Nat) (fmt : ElemFmt) (k n : Nat) (src side : Place)
  /-- `n` rows of the ring, output rows `first` on, enter the array under an ANCHOR_BASE (R62..R71, R77). -/
  | stream (cell arr first n : Nat) (anchor : BitVec 16)
  /-- Output row `row` is drained by final rounding into the cell store (R64, R74, R75). -/
  | round (cell arr row : Nat) (out : OutFmt) (sat : Bool) (off : Nat)
  /-- Output row `row` is drained by a spill to block scratch (R64, R72). -/
  | spill (cell arr row : Nat) (dst : Place)
  /-- `n` outputs' partials are added and passed on whole (R73). -/
  | reduce (level : ReduceAt) (n : Nat) (srcs : List Place) (dst : Place)
  /-- `n` outputs' partials are added and rounded, at the reduction point the plan names (R73, R74). -/
  | finish (level : ReduceAt) (n : Nat) (srcs : List Place) (int8 : Bool) (out : OutFmt) (sat : Bool) (dst : Place)
  /-- `n` outputs' BF16-path partials, each with the first K position it covers, are combined (R77). -/
  | combine (n : Nat) (parts : List (Nat × Place)) (dst : Place)
  /-- `n` elements through the vector lane: operands at `a`, `b`, `c`, results at `dst` (R79). -/
  | lane (cell : Nat) (f : LaneFn) (n a b c dst : Nat)
  /-- FP32 sum or maximum of `n` elements (R77, R79). -/
  | laneReduce (cell : Nat) (max : Bool) (n src dst : Nat)
  /-- One row of `n` elements is quantized into a strip row at `dst`, its ROW_MAXEXP at `side` (R76, R90). -/
  | quant (cell : Nat) (fmt : ElemFmt) (sat bf : Bool) (n src dst side : Nat)
  /-- ROW_MAXEXP of `n` rows combined over the cells that produced them (R69). -/
  | maxExp (n : Nat) (parts : List Place) (dst : Place)
  deriving DecidableEq, Repr

/-- What the residue checker compares (R83): a block sum with its elements, an accumulator addition with its term, a reduction
with its partials, a BF16 significand product with its factors, an adder node's aligned sum with its operands. -/
inductive ResidueCheck where
  | block (xs ys : List Int) (sum : Int)
  | add (old term new : Int)
  | reduce (parts : List Int) (sum : Int)
  | product (a b p : Int)
  | node (a b sum : Int)
  deriving DecidableEq, Repr

/-- The draft model's output at one node, named by the input tokens of its path: its tokens' FP32 logits (R219). -/
structure DraftProp where
  path   : List Nat
  logits : List (Nat × F32)
  deriving DecidableEq, Repr

/-- Logits of the rows that verification ran for one stream: one list of (token, logit) per tree node (R220), and the
global addresses of the cells that ran the stream's last layer (R391). -/
structure VerRow where
  slot   : Nat
  logits : List (List (Nat × F32))
  cells  : List Nat := []
  deriving DecidableEq, Repr

/-- Bookings and BE candidates on the wire (R287, SLATE_BOOK and SLATE). -/
structure SlateItem where
  tag     : Nat
  admitT  : Time
  cls     : Nat
  member  : Nat
  trimmed : Bool := false
  /-- The sweep from whose slate it was trimmed first, and the K of its query (log 47). -/
  trimNo  : Nat := 0
  k       : Nat := 4096
  sketch  : Nat := 0
  filters : List (BitVec 128) := []
  deriving DecidableEq, Repr

/-- A delta for one row and window (R257). `origin` names the source where another module than that sends it on, `late` the window
it takes effect in where it came too late for its own (R258, R261, R267). -/
structure DeltaBody where
  table   : Nat
  version : Nat
  row     : Nat
  window  : Nat
  deltas  : List F32
  origin  : Option Nat := none
  late    : Option Nat := none
  deriving DecidableEq, Repr

/-- A row request (R250). -/
structure RowReqBody where
  table   : Nat
  version : Nat
  row     : Nat
  time    : Time
  key     : Nat
  deriving DecidableEq, Repr

/-- A row answer (R252, R255): the value, or refused; the replica list and its expiry when the row is replicated. -/
structure RowAnsBody where
  table    : Nat
  row      : Nat
  key      : Nat
  value    : Option RowVal
  replicas : List Nat := []
  expiry   : Time := 0
  deriving DecidableEq, Repr

/-- A row sent to a replica, or its announced removal (R254, R255); `copy`: a frozen row on its way to a new home (R261). A replica
that declines answers with a removal. -/
structure ReplicaBody where
  table   : Nat
  version : Nat
  row     : Nat
  value   : RowVal
  prev    : Option (Time × RowVal) := none
  remove  : Option Time := none
  copy    : Bool := false
  deriving DecidableEq, Repr

/-- One item of a remote candidate message (R160). -/
structure CandItem where
  ord    : Nat
  score  : Int := 0
  heads  : List (BitVec 32) := []
  tokens : List (BitVec 32) := []
  lost   : Bool := false
  forged : Bool := false
  deriving DecidableEq, Repr

/-- A remote candidate message; `refused` is the answer of an exhausted allotment (R160). -/
structure CandBody where
  tag     : Nat
  version : Nat
  passages : Bool
  q       : List Int := []
  items   : List CandItem
  refused : Bool := false
  /-- Of a request: ordinals whose records cannot be read at the member, after retries (R154, R159). -/
  unreadable : List Nat := []
  deriving DecidableEq, Repr

/-- A PARTNER_LIST message: header of R288 and entries of R126. -/
structure PartnerListBody where
  header  : BitVec 512
  entries : List (BitVec 128)
  deriving DecidableEq, Repr

/-- A HANDOFF message (R289). -/
structure HandoffBody where
  header  : BitVec 512
  promise : BitVec 256
  gen     : BitVec 512
  opts    : BitVec 256
  stops   : List (BitVec 320)
  prompt  : List (BitVec 32)
  deriving DecidableEq, Repr

/-- One stream entry of a step batch record with its token words and bytes (R231, R233). -/
structure StreamPart where
  entry  : BitVec 128
  words  : List (BitVec 64) := []
  bytes  : List Byte := []
  deriving DecidableEq, Repr

/-- A step batch record before its parts are laid out (R228). -/
structure RecordBody where
  header  : BitVec 512
  streams : List StreamPart
  notices : List (BitVec 128)
  deriving DecidableEq, Repr

/-- PAIR_ADMIT (R296): descriptor, payload, admission time, coverage mode, and what the peer is to charge. -/
structure PairAdmitBody where
  desc      : BitVec 512
  payload   : Payload
  gather    : Option GatherPayload := none
  update    : Option UpdatePayload := none
  copy      : Option (BitVec 256 × List Byte) := none
  admitT    : Time
  reflect   : Bool
  fn        : Nat
  handle    : Nat
  digest    : Nat
  deriving DecidableEq, Repr

/-- One stream's state in MIRROR_STEP (R202, R299): table entry, automaton state, committed tokens, bytes that the matcher and the
UTF-8 stage hold; the tree. -/
structure MirrorEntry where
  slot  : Nat
  entry : BitVec 512
  aut   : BitVec 32
  tokens : List Nat
  held  : List Byte := []
  utf   : List Byte := []
  tree  : List (Nat × Nat) := []
  deriving DecidableEq, Repr

/-- MIRROR_STEP (R300, R302): step, digest, last step whose records were written, entries. -/
structure MirrorStepBody where
  step    : Nat
  digest  : BitVec 64
  written : Nat
  entries : List MirrorEntry
  /-- Table versions, with their tables, that switched in the step (R267, R299). -/
  switches : List (Nat × Nat) := []
  deriving DecidableEq, Repr

/-- A publication control report (R287): kind 0 load-ended, 1 switch, 2 abandonment, 3 failure. -/
structure PublishControlBody where
  kind    : Nat
  index   : Bool
  version : Nat
  value   : Nat
  status  : Status
  deriving DecidableEq, Repr

/-- Outcome of one glint for one suspect (R393). -/
structure GlintOutcome where
  unit     : Nat
  isLane   : Bool := false
  differs  : Bool
  refsAgree : Bool
  deriving DecidableEq, Repr

/-- Where a fault hit: the slices' requests, named by (function, REQ_TAG) (R377, R384). -/
structure Hit where
  fn  : Nat
  tag : Nat
  deriving DecidableEq, Repr

/-- A residue mismatch: what the checker compared, and the streams hit (R83, R84). -/
structure Mismatch where
  check : ResidueCheck
  hits : List Hit
  deriving DecidableEq, Repr

/-- What a format check looks at (R386): the header of a tile at a loader, absent or not, with the tile's plan identifier (R88);
a stored tile that the tile mover copies (R91); the partials of one output (R73). -/
inductive FormatCheck where
  | loader (tile : Nat) (header : Option (BitVec 128))
  | copy (header : BitVec 128) (body : List Byte)
  | partials (ps : List (BitVec 128))
  deriving DecidableEq, Repr

/-- The commands: one constructor per row of the opcode table, in the table's order. Every command carries `t`, the
TIME64 at which it takes effect. A serving request (`ask` to `generate`) brings `host`, the PAYLOAD_LEN bytes of its payload as host
memory, its buffers or its ring entries hold them (R208, R319, R320). -/
inductive Instr where
  | subTailDoorbell (t f r v : Nat)
  | cplHeadDoorbell (t f v : Nat)
  | sbrHeadDoorbell (t f v : Nat)
  | ringEnable (t f : Nat) (ring : RingSel)
  | ringDisable (t f : Nat) (ring : RingSel)
  | funcEventClear (t f : Nat) (mask : BitVec 32)
  | funcRegisterWrite (t f offset width value : Nat)
  | ask (t : Nat) (x : Fetched) (host : List Byte)
  | retrieve (t : Nat) (x : Fetched) (host : List Byte)
  | embed (t : Nat) (x : Fetched) (host : List Byte)
  | rerank (t : Nat) (x : Fetched) (host : List Byte)
  | pack (t : Nat) (x : Fetched) (host : List Byte)
  | generate (t : Nat) (x : Fetched) (host : List Byte)
  | cancel (t : Nat) (x : Fetched)
  | tableGather (t : Nat) (x : Fetched) (g : GatherPayload)
  | tableUpdate (t : Nat) (x : Fetched) (u : UpdatePayload)
  | tablePublishTable (t : Nat) (x : Fetched) (p : PublishPayload)
  | tablePublishMap (t : Nat) (x : Fetched) (p : PublishPayload)
  | tablePublishMigrate (t : Nat) (x : Fetched) (p : PublishPayload)
  | modelLoad (t : Nat) (x : Fetched) (p : LoadPayload)
  | modelSwap (t : Nat) (x : Fetched) (p : LoadPayload)
  | indexPublish (t : Nat) (x : Fetched) (p : LoadPayload)
  | copy (t : Nat) (x : Fetched) (blk : BitVec 256) (data : List Byte)
  | nop (t : Nat) (x : Fetched)
  | copyDone (t f tag : Nat)
  | functionLevelReset (t f : Nat)
  | pcieLinkReset (t : Nat) (perst : Bool)
  | vfEnableChange (t : Nat) (enable : Bool) (num : Nat)
  | msixHoldoffExpiry (t f v : Nat)
  | splitMemberAnswer (t f tag group width : Nat) (ok : Bool) (n : Nat)
  | splitMemberTimeout (t f tag : Nat)
  | tokenizeDone (t f tag : Nat)
  | embedDone (t f tag : Nat) (x : List F32) (outs : List F32)
  | slateClose (t : Nat)
  | sweepStart (t : Nat)
  | prefetchCheckpoint (t quarter : Nat)
  | sweepEnd (t : Nat) (diffs : List (Nat × Nat))
  | mergeDone (t f tag : Nat)
  | partnerListDeadline (t sweepNo : Nat)
  | indexLoadDone (t : Nat) (ok : Bool)
  | rerankDone (t f tag : Nat)
  | crossEncodeDone (t f tag : Nat) (logits : List F32)
  | selectDone (t f tag : Nat)
  | passageFetchDone (t f tag : Nat)
  | packDone (t f tag : Nat)
  | remoteWaitExpiry (t f tag : Nat)
  | handoffWaitExpiry (t f tag : Nat)
  | baseStepBoundary (t lateNs : Nat)
  | sliceEnd (t id : Nat) (ops : List SliceOp)
  | draftFinish (t slot : Nat) (props : List DraftProp)
  | verificationEnd (t : Nat) (rows : List VerRow)
  | stepBatchRecordWrite (t : Nat)
  | modelLoadDone (t f tag slot : Nat)
  | rowReq (t : Nat) (hdr : BitVec 256) (b : RowReqBody)
  | rowAns (t : Nat) (hdr : BitVec 256) (b : RowAnsBody)
  | gatherWaitExpiry (t f tag row : Nat)
  | gatherDone (t f tag : Nat)
  | delta (t : Nat) (hdr : BitVec 256) (b : DeltaBody)
  | deltaAns (t : Nat) (hdr : BitVec 256) (tag : Nat) (applied stale : Bool)
  | poolWindowClose (t w : Nat)
  | poolWindowVisible (t w : Nat)
  | previousValueExpiry (t w : Nat)
  | hotSlotEnd (t : Nat)
  | replica (t : Nat) (hdr : BitVec 256) (b : ReplicaBody)
  | replicaRemovalTime (t table row : Nat)
  | map (t : Nat) (hdr : BitVec 256) (m : MapImage) (cut : Time)
  | migrateFreeze (t : Nat)
  | migrateCopyDone (t : Nat)
  | migrateCut (t : Nat)
  | migrateSwitch (t : Nat)
  | tablePublishAbandon (t table : Nat) (failed : Bool)
  | poolCheckpoint (t : Nat)
  | poolRowRebuildDone (t table row : Nat)
  | portTrainingDone (t port lane : Nat)
  | fecLock (t port lane : Nat)
  | linkHello (t port neighbour : Nat) (lanes : BitVec 4) (credits : List Nat)
  | linkFrameReceive (t port : Nat) (hdr : BitVec 128) (crcOk : Bool)
  | linkReplayTimeout (t port lane : Nat)
  | laneFault (t lane : Nat)
  | laneMap (t port lane : Nat) (join : Bool)
  | sessionOpen (t : Nat) (hdr : BitVec 256) (roles : Nat)
  | sessionAccept (t : Nat) (hdr : BitVec 256) (roles : Nat)
  | sessionRefuse (t : Nat) (hdr : BitVec 256)
  | sessionClose (t : Nat) (hdr : BitVec 256)
  | sessionOpenTimeout (t ident : Nat)
  | sessionIdleTimeout (t idx : Nat)
  | keepaliveSend (t : Nat)
  | keepalive (t : Nat) (hdr : BitVec 256) (sent : Time)
  | ptpSync (t port : Nat) (offset : Int) (valid : Bool)
  | holdoverExpiry (t : Nat)
  | publishControl (t : Nat) (hdr : BitVec 256) (b : PublishControlBody)
  | slateBook (t : Nat) (hdr : BitVec 256) (sweepNo : Nat) (items : List SlateItem)
  | slate (t : Nat) (hdr : BitVec 256) (sweepNo : Nat) (items : List SlateItem)
  | partnerList (t : Nat) (hdr : BitVec 256) (b : PartnerListBody)
  | candReq (t : Nat) (hdr : BitVec 256) (b : CandBody)
  | candAns (t : Nat) (hdr : BitVec 256) (b : CandBody)
  | handoff (t : Nat) (hdr : BitVec 256) (b : HandoffBody)
  | handoffAns (t : Nat) (hdr : BitVec 256) (tag : Nat) (status : Status) (promise : BitVec 256)
  | handoffCancel (t : Nat) (hdr : BitVec 256) (tag origin : Nat)
  | stepRecord (t : Nat) (hdr : BitVec 256) (b : RecordBody)
  | pairOffer (t : Nat) (hdr : BitVec 256) (profile : Nat) (version : Nat) (origin : Time) (period : Nat) (held : Bool)
  | pairAccept (t : Nat) (hdr : BitVec 256)
  | pairAdmit (t : Nat) (hdr : BitVec 256) (b : PairAdmitBody)
  | pairAns (t : Nat) (hdr : BitVec 256) (tag : Nat) (ok : Bool)
  | pairAnsTimeout (t f tag : Nat)
  | mirrorStep (t : Nat) (hdr : BitVec 256) (b : MirrorStepBody)
  | mirrorAck (t : Nat) (hdr : BitVec 256) (step : Nat)
  | mirrorAckTimeout (t step : Nat)
  | heartbeatSend (t : Nat)
  | heartbeat (t : Nat) (hdr : BitVec 256) (sent : Time) (probe answer : Bool)
  | peerSilenceTimeout (t : Nat)
  | probeTimeout (t : Nat)
  | takeover (t : Nat) (hdr : BitVec 256) (lost survivor : Nat)
  | getVersion (t : Nat) (chan : Nat) (etnan : Bool)
  | getCapabilities (t : Nat) (chan : Nat) (etnan : Bool)
  | negotiateAlgorithms (t : Nat) (chan : Nat) (etnan : Bool) (algs : Nat)
  | getDigests (t : Nat) (chan : Nat) (etnan : Bool)
  | getCertificate (t : Nat) (chan : Nat) (etnan : Bool) (slot : Nat)
  | challenge (t : Nat) (chan : Nat) (etnan : Bool) (nonce : BitVec 256)
  | getMeasurements (t : Nat) (chan : Nat) (etnan : Bool) (index : Nat)
  | keyExchange (t : Nat) (chan : Nat) (etnan : Bool) (sid : Nat)
  | finish (t : Nat) (chan : Nat) (etnan : Bool) (sid : Nat) (good : Bool)
  | keyUpdate (t : Nat) (chan : Nat) (etnan : Bool) (sid : Nat)
  | spdmHeartbeat (t : Nat) (chan : Nat) (etnan : Bool) (sid : Nat)
  | endSession (t : Nat) (chan : Nat) (etnan : Bool) (sid : Nat)
  | eraseTenantKey (t : Nat) (chan : Nat) (sid slot : Nat)
  | read (t : Nat) (p : Pdu)
  | write (t : Nat) (p : Pdu)
  | describe (t : Nat) (p : Pdu)
  | next (t : Nat) (p : Pdu)
  | abort (t : Nat) (p : Pdu)
  | roleChallenge (t : Nat) (p : Pdu)
  | roleProve (t : Nat) (p : Pdu)
  | roleDrop (t : Nat) (p : Pdu)
  | segmentTimeout (t : Nat) (transport : Transport) (channel station : Nat)
  | canSessionTimeout (t station : Nat)
  | roleLockoutExpiry (t : Nat) (transport : Transport)
  | canFrameSent (t : Nat)
  | canHeartbeat (t : Nat)
  | serve (t : Nat) (p : Pdu)
  | drain (t : Nat) (p : Pdu)
  | retain (t : Nat) (p : Pdu)
  | resume (t : Nat) (p : Pdu)
  | restartWarm (t : Nat) (p : Pdu)
  | restartCold (t : Nat) (p : Pdu)
  | provision (t : Nat) (p : Pdu) (signer : Signer)
  | seal (t : Nat) (p : Pdu)
  | retire (t : Nat) (p : Pdu)
  | debugEnd (t : Nat) (p : Pdu)
  | debugD1 (t : Nat) (p : Pdu)
  | debugToken (t : Nat) (p : Pdu) (signer : Signer)
  | debugNonce (t : Nat) (p : Pdu)
  | debugExpiry (t : Nat)
  | standby (t : Nat) (p : Pdu)
  | powerCap (t : Nat) (p : Pdu)
  | sweepPeriodWrite (t : Nat) (p : Pdu)
  | sweepShareWrite (t : Nat) (p : Pdu)
  | generationShareWrite (t : Nat) (p : Pdu)
  | glintRequest (t : Nat) (p : Pdu)
  | recoveryData (t : Nat) (p : Pdu)
  | recoveryCommitVerify (t : Nat) (p : Pdu) (signer : Signer) (digestOk : Bool) (secVersion fwVersion : Nat)
  | recoveryCommitErase (t : Nat) (p : Pdu)
  | diagnosticBist (t : Nat) (p : Pdu) (failing : List Nat)
  | eraseKeySlot (t : Nat) (p : Pdu)
  | freeStoredImage (t : Nat) (p : Pdu)
  | openPartner (t : Nat) (p : Pdu)
  | closePartner (t : Nat) (p : Pdu)
  | powerApplied (t mv : Nat)
  | modResetAssert (t : Nat)
  | modResetRelease (t hottestMilli : Nat)
  | p4WakeFrame (t ident : Nat)
  | busOvervoltage (t : Nat)
  | busHighBand (t mv : Nat)
  | busSag (t mv : Nat)
  | busSagEnd (t mv : Nat)
  | busUndervoltage (t : Nat)
  | droopDetect (t region cadence : Nat)
  | cadenceWindow (t : Nat) (counts : List Nat)
  | thermalSample (t : Nat) (compute : List Int) (hub : Int) (hbmTemps flash : List Int)
  | thermalShutdown (t : Nat)
  | hardwareTrip (t : Nat)
  | coolantWarning (t flow : Nat) (inlet : Int)
  | coolantLowFlow (t flow : Nat)
  | idleEntry (t : Nat)
  | tempHistoryMinute (t : Nat) (hottest : Int)
  | startPhaseDone (t : Nat) (slotId : Nat) (failing : List Nat) (badImages : List Nat)
  | startFailed (t reason : Nat)
  | crossingResync (t crossing : Nat) (request ack : Bool)
  | residueMismatch (t cell physical : Nat) (ballast : Bool) (what : Mismatch)
  | blockWatchdog (t cell : Nat) (hits : List Hit)
  | stewardWatchdog (t block : Nat) (hits : List Hit)
  | stewardHeartbeatTimeout (t region : Nat) (hits : List Hit)
  | crossingWatchdog (t part number : Nat) (hits : List Hit)
  | dieBridgeWatchdog (t die : Nat) (hub : Bool) (hits : List Hit)
  | hbmUncorrectable (t stack channel area object : Nat) (twice : Bool) (granules : Nat) (hits : List Hit)
  | stripeRewriteDone (t model : Nat)
  | formatCheckFault (t block : Nat) (c : FormatCheck)
  | hubSramError (t : Nat) (correctable : Bool)
  | processorFault (t processor : Nat)
  | glintDone (t : Nat) (outcomes : List GlintOutcome)
  | flashReadDone (t f tag ord : Nat) (passage : Bool) (channel : Nat) (retried : Bool)
  | flashReadTimeout (t f tag ord : Nat) (passage : Bool) (channel : Nat)
  | flashTargetFault (t target : Nat) (images : List Nat)
  | flashProgramFail (t superblock : Nat)
  | flashWriteDone (t f tag : Nat)
  | logSuperblockMerge (t logical fresh : Nat)
  | superblockErase (t superblock : Nat)
  | dictDoorbell (t f v : Nat)
  | promptCopyDone (t f tag : Nat)
  | sketchReloadDone (t die : Nat)
  | tablePartLoaded (t table : Nat)
  | holdoverEntry (t : Nat)
  | syncInterval (t : Nat)
  | msixUnmask (t f v : Nat)
  | perstNRelease (t : Nat)
  | busHighBandExit (t mv : Nat)
  | coolantRestored (t flow : Nat) (inlet : Int)
  | ppsOutPulse (t : Nat) (level : Bool)
  deriving DecidableEq, Repr

end Sys2Proof
end

