-- ==== Sys2Proof/Decode.lean ====
section
/-!
DEFINITION. Commands spelled as table words. No row of the opcode table gives bits, so no word spells a command.
-/
namespace Sys2Proof

/-- The command that a word of the opcode table's bits spells: none, since no row of the table gives a bit. -/
def decodeTableWord (_nbits _w : Nat) : Option Instr := none

end Sys2Proof
end

