-- ==== Sys2Proof/Config.lean ====
section
/-!
DEFINITION. What one part or one implementation fixes, and the free values: constants without a body, of which nothing
can be proved. The assumption log names each.
-/
namespace Sys2Proof

/-- GD's random draws (R339, R423, R430), by draw counter. -/
opaque Config.freeDraw : Nat → BitVec 384

/-- Hub SRAM offsets that GLIST and PARAMS of R206 hold, by draw counter. -/
opaque Config.freeOffset : Nat → BitVec 32

/-- Automaton state number of R197 for a constraint list (its entries as words) and a beginning of one of them. -/
opaque Config.freeAut : List Nat → List Nat → BitVec 32

/-- Results of the table functions of R79 at an argument, before they are held to their bounds. -/
opaque Config.freeTable : Nat → BitVec 32 → BitVec 32

/-- Which result a minimum or maximum gives where R79 states none. -/
opaque Config.freePick : BitVec 32 → BitVec 32 → BitVec 1

/-- The point at which HP sets the adaptive core rail, by draw counter (R17 gives its range alone). -/
opaque Config.freeRail : Nat → Nat

/-- Whether the provisional merge of a query (its tag) at a quarter of a sweep ends before the next checkpoint (R152). -/
opaque Config.freeMerged : Nat → Nat → Nat → Bool

/-- Whether the speculative read of an ordinal for a query (its tag) has been sent to its flash target by the final merge (R153). -/
opaque Config.freeSent : Nat → Nat → Bool

/-- The channel, 0..31 after reduction, that a stripe of R102 uses on its six stacks. -/
opaque Config.freeChannel : Nat → Nat

/-- Credits per class that the module's receive buffers give a neighbour at first, which R273 and R277 leave open (log 193). -/
opaque Config.freeCredits : Nat → Nat

/-- Contents of an SPDM answer that R426 and R427 leave to DSP0274 and to the keys, by draw counter and request code. -/
opaque Config.freeSpdm : Nat → Nat → BitVec 512

/-- Measurement digests of R427 that the manual does not give: boot ROM (1), manifest (2), image list (4), by index and input. -/
opaque Config.freeDigest : Nat → List Nat → BitVec 384

end Sys2Proof
end

