-- ==== Sys2Proof/Machine/State.lean ====
section
/-!
DEFINITION. The state of the module: every register, queue, buffer, counter, mode and pin the manual gives it, as plain
data. A field's default is its value at reset; INVENTORY.md names the source of each.
-/
namespace Sys2Proof.Machine

/-- An addressed buffer: bytes by address, rising, none of them 0, which is what an unlisted address reads as. -/
abbrev Memory := List Host.Cell

/-! ### Modes -/

/-- Operating states of R353. -/
inductive OpState where
  | off | dark | starting | ready | serving | draining | retained
  deriving DecidableEq, Repr

/-- Session roles of R335, in rising order. -/
inductive Role where
  | observer | operator | custodian
  deriving DecidableEq, Repr

/-- Lifecycle states of R419. -/
inductive Lifecycle where
  | blank | opened | sealed | retired
  deriving DecidableEq, Repr

/-- Debug levels of R428. -/
inductive DebugLevel where
  | d0 | d1 | d2 | d3
  deriving DecidableEq, Repr

/-- Time states of R285. -/
inductive TimeState where
  | acquiring | locked | holdover | freeRun
  deriving DecidableEq, Repr

/-- Pair states of R294. -/
inductive PairState where
  | unpaired | forming | paired | split | survivor
  deriving DecidableEq, Repr

/-- Power states of R415. -/
inductive PowerState where
  | p0 | p1 | p2 | p3 | p4
  deriving DecidableEq, Repr

/-- States of a partner table entry (R309). -/
inductive SessState where
  | free | opening | opened | closing
  deriving DecidableEq, Repr

/-- States of a sequence table entry (R206). -/
inductive SeqState where
  | free | reserved | prefill | decode
  deriving DecidableEq, Repr

/-- ROLE of a sequence table entry (R206). -/
inductive SeqRole where
  | unpaired | primary | reflectPartner | shadowPartner
  deriving DecidableEq, Repr

/-- Ledgers of R37, and the mirror ledger of R297. -/
inductive Ledger where
  | handshakes | genBytes | tblBytes | slate | flash | text | handoff | mirror
  deriving DecidableEq, Repr

/-! ### What the module sends out -/

/-- What leaves the module. Host writes and messages carry their bytes as the little-endian integer of R4. -/
inductive Output where
  /-- A DMA write of `len` bytes for function `f` (R311). -/
  | hostWrite (f addr len value : Nat)
  /-- An MSI-X message (R329). -/
  | msix (f vec : Nat)
  /-- A CAN FD frame (R347). -/
  | can (ident : Nat) (bytes : List Byte)
  /-- A dictionary PDU on the PCIe window or on Etnan (R350, R351). -/
  | pdu (transport : Transport) (channel : Nat) (header : BitVec 128) (bytes : List Byte)
  /-- An Etnan message: destination, MSG code, the fields that say what it is about, its payload bytes (R272, R287). -/
  | fabric (dest msg : Nat) (key : List Nat) (payload : List Byte)
  /-- A step batch record sent to a fabric partner (R228, R287). -/
  | record (dest : Nat) (body : RecordBody)
  /-- A link frame on a port, with its fields: 0 LANE_MAP (lanes), 1 NAK and 2 replay (LSEQ), 3 LINK_HELLO (identifier, lanes, initial
  credits per class), 4 PTP (time), 5 a frame of a message (link header, transport header) (R273..R277, R285). -/
  | link (port kind : Nat) (fields : List Nat)
  /-- An SPDM answer on a channel: request code, raw value (R426). -/
  | spdm (etnan : Bool) (channel code : Nat) (value : List Nat)
  deriving DecidableEq, Repr

/-! ### Host interface -/

/-- A submission ring (R313, R316); `tail` is the doorbell value. -/
structure SubRing where
  base : Nat := 0
  size : Nat := 0
  enable : Bool := false
  error : Bool := false
  errStatus : Nat := 0
  head : Nat := 0
  tail : Nat := 0
  deriving DecidableEq, Repr

/-- The completion ring (R313, R317, R325); `phase` is the PHASE of the next entry. -/
structure CplRing where
  base : Nat := 0
  size : Nat := 0
  enable : Bool := false
  error : Bool := false
  errStatus : Nat := 0
  tail : Nat := 0
  head : Nat := 0
  phase : Bool := true
  used : Nat := 0
  reserved : Nat := 0
  deriving DecidableEq, Repr

/-- A laid-out record waiting in an overflow area (R328). -/
structure RecOut where
  len : Nat
  bits : Nat
  deriving DecidableEq, Repr

/-- The step batch ring (R313, R328); `full` tells a full ring from an empty one with equal offsets. -/
structure SbrRing where
  base : Nat := 0
  size : Nat := 0
  enable : Bool := false
  error : Bool := false
  errStatus : Nat := 0
  tail : Nat := 0
  head : Nat := 0
  ovf : List RecOut := []
  deriving DecidableEq, Repr

/-- A host window (R314): base and length in 4 KiB units. -/
structure Win where
  base : Nat := 0
  len : Nat := 0
  deriving DecidableEq, Repr

/-- An MSI-X vector (R329); `armed`: an interrupt waits for the hold-off. -/
structure MsixVec where
  addr : Nat := 0
  data : Nat := 0
  masked : Bool := true
  pend : Bool := false
  armed : Bool := false
  lastFired : Option Time := none
  deriving DecidableEq, Repr

/-- The registers of one function (R313, R350). -/
structure Fn where
  event : BitVec 32 := 0
  holdoff : Nat := 0
  subs : List SubRing := [{}, {}, {}, {}]
  cpl : CplRing := {}
  sbr : SbrRing := {}
  wins : List Win := List.replicate 16 {}
  msix : List MsixVec := [{}, {}, {}, {}]
  dictReq : Memory := []
  dictRsp : List Byte := []
  dictBusy : Bool := false
  dictValid : Bool := false
  dictTaken : Option (BitVec 128 × List Byte) := none
  overrun : Bool := false
  deriving DecidableEq, Repr

/-- Endpoint state shared by the functions (R311, R317, R439). -/
structure HostIf where
  fns : List Fn := List.replicate 64 {}
  vfEnable : Bool := false
  numVfs : Nat := 0
  lastServed : Nat := 63
  perstHigh : Bool := false
  deriving DecidableEq, Repr

/-! ### Requests -/

/-- A timed charge of a request on a ledger: `amount` in equal shares over the units `first` to `last` (R37, R43). -/
structure Charge where
  fn : Nat
  tag : Nat
  ledger : Ledger
  first : Nat
  last : Nat
  amount : Nat
  deriving DecidableEq, Repr

/-- The promise record (R33). -/
structure Promise where
  firstDue : Time := 0
  admitTime : Time := 0
  periodNs : Nat := 0
  epoch : Nat := 0
  handle : Nat := 0
  lc : Bool := false
  kind : Nat := 0
  steps : Nat := 0
  deriving DecidableEq, Repr

/-- Reserved granules by pool, and the granule list: how many of the first three lie on each die (R105). -/
structure Granules where
  hbm : Nat := 0
  region : Nat := 0
  block : Nat := 0
  hub : Nat := 0
  hbmAt : List Nat := []
  regionAt : List Nat := []
  blockAt : List Nat := []
  deriving DecidableEq, Repr

/-- A CANCEL that waits for its target to end (R327). -/
structure CancelRef where
  tag : Nat
  ring : Nat
  index : Nat
  deriving DecidableEq, Repr

/-- An entry of a retrieval list (R126). -/
structure ListEntry where
  id : Nat
  dist : Nat
  lane : Nat
  deriving DecidableEq, Repr

/-- One logical lane's list of a query (R123): (distance, ordinal) in order. -/
structure LaneList where
  lane : Nat
  entries : List (Nat × Nat) := []
  overCount : Nat := 0
  pass : Nat := 0
  clipped : Bool := false
  complete : Bool := true
  deriving DecidableEq, Repr

/-- An accepted partner list (R132, R288). -/
structure PartnerSrc where
  member : Nat
  shard : Nat
  entries : List ListEntry
  dK : Nat
  tie : Nat
  filterPass : Nat
  saturated : Bool
  clipped : Bool
  incomplete : Bool
  deriving DecidableEq, Repr

/-- A retrieval result (R133). -/
structure RetrResult where
  sweepNo : Nat := 0
  start : Time := 0
  filterPass : Nat := 0
  tie : Nat := 0
  dup : Nat := 0
  k : Nat := 0
  valid : Nat := 0
  dK : Nat := 0xFFFF
  version : Nat := 0
  missing : Nat := 0
  sources : Nat := 0
  mismatch : Nat := 0
  status : Status := .done
  saturated : Bool := false
  filtered : Bool := false
  trimmed : Bool := false
  entries : List ListEntry := []
  deriving DecidableEq, Repr

/-- A candidate of the ranking stages (R151..R159). -/
structure Cand where
  id : Nat
  score : Option Int := none
  logit : Option F32 := none
  heads : List Nat := []
  selected : Bool := false
  lost : Bool := false
  forged : Bool := false
  whole : Bool := false
  packed : Bool := false
  tokens : List Nat := []
  deriving DecidableEq, Repr

/-- A gather in progress, of a TABLE_GATHER or of a feature table in stage 9 (R247, R250): step time, bound version, rows in hand by index, rows awaited. -/
structure GatherWork where
  table : Nat
  version : Nat
  time : Time
  epoch : Nat
  have_ : List (Nat × RowVal) := []
  await : List Nat := []
  unserved : List Nat := []
  deriving DecidableEq, Repr

/-- What the cross-encoder takes for one candidate (R155): user tokens, head tokens, one row of each feature table. -/
structure CrossInput where
  user : List Nat
  heads : List Nat
  rows : List RowVal
  deriving DecidableEq, Repr

/-- Progress of a request through the stages of R24. -/
structure Work where
  stage : Nat := 0
  tokens : List Nat := []
  encTokens : List Nat := []
  embedding : List F32 := []
  sketch : Nat := 0
  qvec : List Int := []
  sketchReady : Bool := false
  sweepNo : Option Nat := none
  version : Nat := 0
  trimmed : Bool := false
  trimNo : Nat := 0
  /-- The bound of its merge at admission (R45, R139). -/
  mergeBound : Time := 0
  result : Option RetrResult := none
  cands : List Cand := []
  rrDone : Nat := 0
  rrLost : Nat := 0
  ceDone : Nat := 0
  nonFinite : Nat := 0
  fetchLost : Nat := 0
  forged : Nat := 0
  specIssued : List Nat := []
  specDiscarded : Nat := 0
  readOrds : List Nat := []
  lostOrds : List Nat := []
  /-- Shards whose answers are awaited, and the modules asked for shards (R160). -/
  remote : List Nat := []
  asked : List (Nat × Nat) := []
  selMass : F32 := 0
  leftMass : F32 := 0
  packLeft : F32 := 0
  packed : List Nat := []
  userCut : Nat := 0
  packedWhole : Nat := 0
  truncated : Bool := false
  omitted : Nat := 0
  attempt : Nat := 0
  awaiting : Option Nat := none
  partnerAnswer : Nat := 0
  partnerStatus : Nat := 0
  partnerId : Nat := 0
  prompt : List Nat := []
  resBytes : Nat := 0
  since : Time := 0
  /-- Member whose list counts for a shard (R128, R160). -/
  sources : List (Nat × Nat) := []
  /-- Gathers of the cross-encoder's feature tables, in the image's order, and the inputs that stage 9 scored (R155). -/
  feats : List GatherWork := []
  ceIn : List CrossInput := []
  deriving DecidableEq, Repr

/-- A TABLE_UPDATE in progress (R257, R260). -/
structure UpdateWork where
  window : Nat
  homes : List Nat := []
  skipped : Nat := 0
  refused : Nat := 0
  stale : Bool := false
  deriving DecidableEq, Repr

/-- A load, swap or publication in progress (R235..R237): the verified image; the image staged in HBM,
every copy of it ended (`written`), its flash copy programmed (`stored`), the victim removed, hub SRAM granules taken. -/
structure LoadWork where
  image : SignedImage
  keep : Bool := false
  imageId : Nat := 0
  written : Bool := false
  staged : Bool := false
  victim : Nat := 0
  slot : Nat := 0
  removed : Bool := false
  stored : Bool := false
  hub : Nat := 0
  deriving DecidableEq, Repr

/-- The answers a request waits for before its admission completes (R108, R296). -/
structure Round where
  split : Bool
  since : Time
  answers : List (Nat × Nat × Nat) := []
  deriving DecidableEq, Repr

/-- An outstanding request (R29, R319..R327). -/
structure Request where
  fn : Nat
  tag : Nat
  op : Nat
  desc : BitVec 512
  ring : Nat
  index : Nat
  lc : Bool
  payload : Payload := {}
  promise : Promise := {}
  gran : Granules := {}
  wins : List Win := []
  work : Work := {}
  cancels : List CancelRef := []
  cancelling : Bool := false
  round : Option Round := none
  withdrawn : Bool := false
  started : Bool := true
  gather : Option (GatherPayload × GatherWork) := none
  update : Option (UpdatePayload × UpdateWork) := none
  load : Option LoadWork := none
  publish : Option PublishPayload := none
  copy : Option (BitVec 256 × List Byte) := none
  covered : Nat := 0
  /-- Ends at the next boundary: 1 its KV or a granule is lost (R384), 2 a member of its split model is lost (R109), 3 its
  image is lost (R385); 0 none of these. -/
  lostBy : Nat := 0
  /-- Fabric origin (partner index + 1) of an accepted hand-off, 0 for a host request (R291). -/
  origin : Nat := 0
  returnId : Nat := 0
  /-- Copies bound at admission: vocabularies by identifier, template, constraint list (R161, R178, R198). -/
  vocabs : List (Nat × Nat) := []
  template : Nat := 0
  clist : Nat := 0
  /-- The request generates here: slot of its model, bound on its prompt tokens, most new tokens (R25, R41). -/
  gen : Bool := false
  model : Nat := 0
  bound : Nat := 0
  maxNew : Nat := 0
  /-- Base steps over which the prefill share is spread (R43). -/
  nPf : Nat := 1
  /-- NODES as charged and reserved: requested, within 0x4200:0x03 at admission (R218, R224, R239). -/
  nodes : Nat := 0
  /-- Mirrored for the pair peer (R296, R298). -/
  mirror : Bool := false
  /-- Ended by a Function Level Reset: nothing more is written for it (R330). -/
  silent : Bool := false
  deriving DecidableEq, Repr

/-- Admission state of AP (R32, R36, R52..R54), and the HBM shares in force in GB/s (R98, R99): for sweeps, in the table
ledger, for generation. -/
structure Admission where
  epoch : BitVec 32 := 0
  lastAdmit : Time := 0
  refuseLc : Bool := false
  /-- The last boundary at which a commitment was withdrawn (R54). -/
  withdrewAt : Option Time := none
  reeval : Bool := false
  charges : List Charge := []
  bSweep : Nat := 24000
  bSweepTbl : Nat := 24000
  bGen : Nat := 30000
  deriving DecidableEq, Repr

/-- The four areas of a die whose module lends so many GB (R101, R242, log 6). -/
def dieAreas (lend : Nat) : List Nat := [96000000000, 96000000000, lend * 250000000, 192000000000 - lend * 250000000]

/-- Pool sizes (R101, R105). Areas: four byte counts per die, parity included. -/
structure Pools where
  areas : List (List Nat) := List.replicate 4 (dieAreas 512)
  hubGranules : Nat := 14336
  ovfHeld : Nat := 0
  deriving DecidableEq, Repr

/-! ### Generation -/

/-- An entry of the active sequence table (R206). -/
structure SeqEntry where
  gen : Nat := 0
  state : SeqState := .free
  lc : Bool := true
  wdrawn : Bool := false
  role : SeqRole := .unpaired
  model : Nat := 0
  steps : Nat := 0
  depth : Nat := 0
  nodes : Nat := 0
  last : Nat := 0
  constraint : Nat := 0
  prompt : Nat := 0
  ctx : Nat := 0
  generated : Nat := 0
  maxNew : Nat := 0
  aut : BitVec 32 := 0
  seed : BitVec 64 := 0
  glist : BitVec 32 := 0
  params : BitVec 32 := 0
  firstDue : Time := 0
  route : Nat := 0
  pfDone : Nat := 0
  phase : Nat := 0
  deriving DecidableEq, Repr

/-- A tree node other than by its number (R218): parent's number, input token, level. -/
structure TreeNode where
  parent : Nat
  token : Nat
  level : Nat
  deriving DecidableEq, Repr

/-- A delivered token (R233). -/
structure TokenOut where
  token : Nat
  spec : Bool
  forced : Bool
  sel : F32 := 0
  left : F32 := 0
  deriving DecidableEq, Repr

/-- What a step gave a stream (R220, R227): tokens, released bytes, the stopping status. -/
structure StepOut where
  firstJ : Nat
  tokens : List TokenOut := []
  bytes : List Byte := []
  final : Option Status := none
  lcAtStep : Bool := false
  deriving DecidableEq, Repr

/-- What SQ and the text engine keep per generating stream beside its table entry (R188, R202, R218). -/
structure Stream where
  slot : Nat
  fn : Nat
  tag : Nat
  modelId : Nat
  promptToks : List Nat := []
  toks : List Nat := []
  held : List Byte := []
  utf : List Byte := []
  tree : List TreeNode := []
  /-- The draft's proposals for the next step, once its draft has finished (R219). -/
  draft : Option (List DraftProp) := none
  out : Option StepOut := none
  recovered : Bool := false
  failedOver : Bool := false
  ending : Option Status := none
  freeing : Bool := false
  /-- Bytes that the BE model step in progress has still to read (R42); none between model steps. -/
  unread : Option Nat := none
  deriving DecidableEq, Repr

/-- The active sequence table and the order in which slots have been free (R205, R206). -/
structure SeqTable where
  entries : List (Nat × SeqEntry) := []
  freed : List Nat := []
  streams : List Stream := []
  deriving DecidableEq, Repr

/-- An item of a work list (R214): group 1..6 and what it runs. -/
structure WorkItem where
  group : Nat
  slot : Nat
  fn : Nat := 0
  tag : Nat := 0
  node : Nat := 0
  amount : Nat := 1
  deriving DecidableEq, Repr

/-- A placed slice (R215): model, its block, its handshakes, its layer in the plan and the logical cells that layer names (R381);
`issued` once it has its block and the copies that this calls for are in their queues (R96). -/
structure Slice where
  id : Nat
  model : Nat
  block : Nat
  handshakes : Nat
  ended : Bool := false
  layer : Nat := 0
  cells : BitVec 16 := 0xFFFF
  issued : Bool := false
  deriving DecidableEq, Repr

/-- An entry waiting for a record: the route, the slot (or none for a notice), and the words (R231, R234). -/
structure PendEntry where
  route : Nat
  slot : Nat
  part : StreamPart
  notice : Option (BitVec 128) := none
  deriving DecidableEq, Repr

/-- A step whose record is to be written (R228). -/
structure ClosingStep where
  no : Nat
  stepEnd : Time
  epoch : BitVec 32
  shed : Bool
  trimmed : Bool
  catchup : Bool
  deriving DecidableEq, Repr

/-- The base step in progress (R213..R217). -/
structure StepState where
  no : Nat := 0
  begun : Bool := false
  lateNs : Nat := 0
  shed : Bool := false
  trimmed : Bool := false
  catchup : Bool := false
  work : List WorkItem := []
  slices : List Slice := []
  nextSlice : Nat := 0
  pend : List PendEntry := []
  closing : Option ClosingStep := none
  /-- Entries of the closing step's records. -/
  closed : List PendEntry := []
  verified : Bool := false
  deriving DecidableEq, Repr

/-- An accumulator entry: sum in units of 2^Q and its flags (R70, R71). -/
structure Acc where
  acc : Int := 0
  nan : Bool := false
  pinf : Bool := false
  ninf : Bool := false
  clamped : Bool := false
  lowcut : Bool := false
  deriving DecidableEq, Repr

/-- The three paths into the accumulator file: MX, INT8, BF16. -/
inductive AccKind where
  | mx | int8 | bf16
  deriving DecidableEq, Repr

/-- An accumulator row in use: its output row, its anchor, its entries (exact sums, or FP32 on the BF16 path) (R64, R69, R77). -/
structure AccRow where
  out : Nat
  kind : AccKind
  q : Int := 0
  sums : List Acc := []
  fps : List F32 := []
  deriving DecidableEq, Repr

/-- A tile register of an array (R62). -/
structure TileReg where
  header : BitVec 128
  body : List Byte
  deriving DecidableEq, Repr

/-- A row in the ring, with its value of the side vector (R64, R90). -/
structure RingRow where
  fmt : ElemFmt
  k : Nat
  bytes : List Byte
  maxExp : Int
  deriving DecidableEq, Repr

/-- An array: the full one, or a quarter (R62, R64). `acc` is by accumulator row. -/
structure ArrayUnit where
  active : Option TileReg := none
  shadow : Option TileReg := none
  ring : List RingRow := []
  acc : List (Nat × AccRow) := []
  deriving DecidableEq, Repr

/-- A cell (R58..R64, R81, R88): mode, arrays, the tile headers its sequencer holds (with the body's offset in the cell store),
activity level p and duty counter F with the time of the last real row, ballast rows so far. -/
structure Core where
  split : Bool := false
  arrays : List ArrayUnit := [{}, {}, {}, {}]
  headers : List (Nat × BitVec 128) := []
  level : Nat := 0
  duty : Nat := 0
  rampAt : Time := 0
  ballast : Nat := 0
  deriving DecidableEq, Repr

/-- The end of a slice while a mismatch of its last row may still be reported (R84): what it wrote outside its cells, as it was
before. -/
structure FreshEnd where
  id : Nat
  block : Nat
  at_ : Time
  undo : List (Nat × Byte) := []
  deriving DecidableEq, Repr

/-- Arithmetic counters of R85 that cells hold until HP reads them, the cells by ordinal, slices that have just ended. -/
structure CellState where
  nan : Nat := 0
  inf : Nat := 0
  clamped : Nat := 0
  lowcut : Nat := 0
  saturated : Nat := 0
  residue : Nat := 0
  cores : List (Nat × Core) := []
  fresh : List FreshEnd := []
  nanByModel : List (Nat × Nat) := []
  nanBlocks : List (Nat × Nat) := []
  normSuspects : List Nat := []
  digestSuspects : List Nat := []
  sampleSuspects : List Nat := []
  laneSuspects : List Nat := []
  sketchNan : Nat := 0
  /-- Positions without candidate of the step, as reported to the monitors (R226). -/
  noCandidate : Nat := 0
  deriving DecidableEq, Repr

/-! ### Memory tiers (R86..R104) -/

/-- Master copy of a resident tile in the image area of its cell's die: first stripe and stored bytes, header included (R87). -/
structure Master where
  slot : Nat
  cell : Nat
  off : Nat
  die : Nat
  stripe : Nat
  len : Nat
  deriving DecidableEq, Repr

/-- A copy in a tile mover's queue (R94, R96): its model, the layer that consumes it, the step and layer at whose placement it
was issued; HBM bytes it has still to move. -/
structure MoverJob where
  slot : Nat
  layer : Nat
  copy : PlanCopy
  left : Nat
  deriving DecidableEq, Repr

/-- A region steward's window (R100): its number in µs, and the bytes granted in it to sweep, generation and tables. -/
structure ShareWindow where
  no : Nat := 0
  sweep : Nat := 0
  gen : Nat := 0
  tbl : Nat := 0
  deriving DecidableEq, Repr

/-- Contents of the tiers, master copies, the queue and the window of each region, COPY requests cancelled with their copy in flight
(R95). -/
structure TierState where
  mem : Memory := []
  masters : List Master := []
  queues : List (Nat × List MoverJob) := []
  windows : List (Nat × ShareWindow) := []
  inFlight : List Request := []
  deriving DecidableEq, Repr

/-! ### Retrieval -/

/-- A place in a slate (R120, R121). -/
structure SlatePos where
  member : Nat
  fn : Nat
  tag : Nat
  lc : Bool
  admitT : Time
  sketch : Nat
  filters : List (BitVec 128)
  k : Nat := 4096
  deriving DecidableEq, Repr

/-- A query waiting for a BE position (R120). -/
structure BeQuery where
  fn : Nat
  tag : Nat
  /-- The sweep it booked, or that it was displaced to (R44). -/
  sweep : Nat := 0
  trimmed : Bool := false
  deriving DecidableEq, Repr

/-- A running or finished sweep (R123, R131). -/
structure SweepRun where
  no : Nat
  start : Time
  version : Nat
  slate : List SlatePos
  lists : List (Nat × List LaneList) := []
  partners : List (Nat × PartnerSrc) := []
  complete : Bool := true
  deriving DecidableEq, Repr

/-- Sweep conductor (R119..R132). `segs` are (n_c, S(n_c), period in ns), `waits` (first sweep, P_WAIT), latest first. -/
structure SweepState where
  origin : Time := 0
  segs : List (Nat × Time × Nat) := []
  nextNo : Nat := 0
  /-- Closed slates whose sweeps have not begun, in order: the first is that of `nextNo` (R51, R120). -/
  closed : List (Nat × List SlatePos) := []
  running : Option SweepRun := none
  finished : List SweepRun := []
  bookings : List (Nat × Nat × Nat) := []
  beQueue : List BeQuery := []
  waits : List (Nat × Nat) := []
  quarters : Nat := 0
  unswept : List Nat := []
  /-- Items and members that the slate owner has for a sweep (R121). -/
  groupItems : List (Nat × SlateItem) := []
  groupFrom : List (Nat × Nat) := []
  /-- Partner lists of closed slates whose sweep has not begun here: sweep, position, list (R132). -/
  early : List (Nat × Nat × PartnerSrc) := []
  deriving DecidableEq, Repr

/-- A live index version (R135..R137); `imageId` is its stored image, `vocab` the vocabulary copy it references. -/
structure IndexVer where
  vocab : Nat := 0
  img : IndexImage
  digest : Nat
  imageId : Nat
  bytes : Nat
  deriving DecidableEq, Repr

/-- A publication in progress (R136, R138). -/
structure Publication where
  img : IndexImage
  digest : Nat
  imageId : Nat
  bytes : Nat
  fn : Nat
  tag : Nat
  stored : Bool
  vocab : Nat := 0
  loaded : Bool := false
  reported : List Nat := []
  /-- First sweep without booking at every member that has reported (R138). -/
  free : Nat := 0
  switchSweep : Option Nat := none
  deriving DecidableEq, Repr

/-- Index versions: the current one first (R135). -/
structure IndexState where
  live : List IndexVer := []
  pub : Option Publication := none
  deriving DecidableEq, Repr

/-! ### Images -/

/-- A resident model image (R211, R236, R237); `vocab` is the vocabulary copy it was loaded against (R178). `nLc` is the n_m of R42, 0 while the model has no LC stream;
`ahead` once copies for its next model step have been issued (R96), `placed` once its resident tiles stand in the cells (R87). -/
structure ModelRes where
  slot : Nat
  img : ModelImage
  digest : Nat
  imageId : Nat := 0
  fn : Nat := 0
  old : Bool := false
  victim : Bool := false
  vocab : Nat := 0
  nLc : Nat := 0
  homeless : Nat := 0
  rebuilt : Nat := 0
  ahead : Bool := false
  placed : Bool := false
  deriving DecidableEq, Repr

/-- A resident vocabulary (R178); `copy_` tells copies apart. -/
structure VocabRes where
  slot : Nat
  copy_ : Nat := 0
  gran : Nat := 0
  img : VocabImage
  digest : Nat
  imageId : Nat := 0
  old : Bool := false
  deriving DecidableEq, Repr

/-- A resident template (R161); `copy_` tells copies apart, `vocab` is the vocabulary copy it was loaded against. -/
structure TemplateRes where
  gran : Nat := 0
  copy_ : Nat := 0
  vocab : Nat := 0
  img : TemplateImage
  digest : Nat
  imageId : Nat := 0
  old : Bool := false
  deriving DecidableEq, Repr

/-- A resident constraint list (R197, R198); `copy_` tells copies apart. -/
structure ClistRes where
  gran : Nat := 0
  copy_ : Nat := 0
  digest : Nat := 0
  img : ConstraintImage
  fn : Nat
  imageId : Nat := 0
  old : Bool := false
  deriving DecidableEq, Repr

/-- Resident images; `scratch` is function scratch (R322), `copies` the copies made so far. -/
structure ImageState where
  copies : Nat := 0
  models : List ModelRes := []
  vocabs : List VocabRes := []
  templates : List TemplateRes := []
  clists : List ClistRes := []
  scratch : List (Nat × Memory) := []
  deriving DecidableEq, Repr

/-! ### Embedding pool -/

/-- A row held by its home (R254, R259, R268): value, the values before each V(w) that is not past, newest first, lost
mark. -/
structure PoolRow where
  row : Nat
  value : RowVal
  prev : List (Time × RowVal) := []
  lost : Bool := false
  deriving DecidableEq, Repr

/-- A table version held at this module (R264, R266). -/
structure PoolTable where
  desc : TableDesc
  rows : List PoolRow := []
  current : Bool := true
  /-- A version no longer current stays for reads until then (R252, R266). -/
  until_ : Time := 0
  imageRows : List (Nat × RowVal) := []
  deriving DecidableEq, Repr

/-- A replica held here (R254, R255), or, marked, a row copied here for a migration (R261). -/
structure ReplicaRow where
  table : Nat
  version : Nat
  row : Nat
  value : RowVal
  prev : List (Time × RowVal) := []
  from_ : Time
  removeAt : Option Time := none
  copy_ : Bool := false
  deriving DecidableEq, Repr

/-- A replica list: of a row homed here (`mine`), or learned from an answer (R244, R255). -/
structure ReplicaList where
  table : Nat
  row : Nat
  holders : List Nat
  expiry : Time
  mine : Bool
  cold : Nat := 0
  /-- Replicas announced for removal, with their removal times. -/
  leaving : List (Nat × Time) := []
  /-- Modules asked since the last slot, which may decline, and the candidates after them (R254). -/
  asked : List Nat := []
  cands : List Nat := []
  deriving DecidableEq, Repr

/-- A delta queued for a window (R258). -/
structure QueuedDelta where
  window : Nat
  table : Nat
  row : Nat
  source : Nat
  seq : Nat
  key : Nat
  deltas : List F32
  /-- The old home that sent it on, which the answer goes to (R261). -/
  via : Option Nat := none
  deriving DecidableEq, Repr

/-- A migration at its old home (R261), or the queue at its new home. -/
structure Migration where
  table : Nat
  lo : Nat
  hi : Nat
  newHome : Nat
  freeze : Nat
  frozen : Bool := false
  copied : Bool := false
  cut : Option Time := none
  fn : Nat
  tag : Nat
  incoming : Bool := false
  deriving DecidableEq, Repr

/-- A staged publication of a table part or a map (R264, R265). -/
structure StagedPub where
  switchTime : Time
  table : Option TableImage := none
  map : Option MapImage := none
  loaded : Bool := false
  fn : Nat
  tag : Nat
  deriving DecidableEq, Repr

/-- The pool part of this module (Embedding table pool). -/
structure PoolState where
  epoch : BitVec 32 := 0
  haveMap : Bool := false
  ranges : List (BitVec 256) := []
  descs : List TableDesc := []
  tables : List PoolTable := []
  replicas : List ReplicaRow := []
  lists : List ReplicaList := []
  reads : List (Nat × Nat × Nat × Nat) := []
  queue : List QueuedDelta := []
  /-- Deltas of this source not sent yet (R257). -/
  outgoing : List QueuedDelta := []
  visibleTo : Nat := 0
  /-- Deltas sent on to a new home: the key sent, the source, the source's key (R261). -/
  forwarded : List (Nat × Nat × Nat) := []
  closedTo : Nat := 0
  epochWindow : Nat := 0
  migration : Option Migration := none
  staged : List StagedPub := []
  journal : List (Nat × Nat × Nat × RowVal) := []
  checkpoint : List (Nat × Nat × RowVal) := []
  servedStep : Nat := 0
  served : Nat := 0
  candSlot : Nat := 0
  candServed : Nat := 0
  deriving DecidableEq, Repr

/-! ### Etnan -/

/-- A lane of a port (R273, R274). -/
structure Lane where
  trained : Bool := false
  fec : Bool := false
  inService : Bool := false
  deriving DecidableEq, Repr

/-- A port (R273..R277): neighbour, link sequence numbers, replay buffer, credits per class. -/
structure Port where
  lanes : List Lane := [{}, {}, {}, {}]
  inService : Bool := false
  neighbour : Nat := 0
  txSeq : BitVec 16 := 0
  rxSeq : BitVec 16 := 0
  replay : List (BitVec 16 × Nat) := []
  credits : List Nat := [0, 0, 0, 0, 0, 0]
  deriving DecidableEq, Repr

/-- A partner table entry (R280..R284, R309). `rxSeq` is the next TSEQ per class; `paths` the last 64 delays. -/
structure Session where
  idx : Nat
  ident : Nat
  lsess : Nat := 0
  rsess : Nat := 0
  state : SessState := .free
  roles : BitVec 8 := 0
  paths : List Nat := []
  lastRx : Time := 0
  openedAt : Time := 0
  rxSeq : List Nat := [0, 0, 0, 0, 0, 0]
  deriving DecidableEq, Repr

/-- An answer to a hand-off kept for 1 s (R291). -/
structure KeptAnswer where
  origin : Nat
  tag : Nat
  until_ : Time
  status : Status
  promise : BitVec 256
  deriving DecidableEq, Repr

/-- Fabric transport state (R278..R284, R291). -/
structure FabState where
  ident : Nat := 0
  alsoId : List Nat := []
  /-- Lost modules and the partners that answer for them (R109, R306). -/
  standIns : List (Nat × Nat) := []
  ports : List Port := List.replicate 16 {}
  sessions : List Session := []
  nextSess : Nat := 1
  opens : List (Nat × Time) := []
  unreachable : List (Nat × Time) := []
  epoch : BitVec 32 := 0
  changed : Bool := false
  /-- Identifiers written to 0xA020:0x01 and not unpinned. -/
  pinned : List Nat := []
  kept : List KeptAnswer := []
  handles : List (Nat × Nat × Nat × Nat) := []
  deriving DecidableEq, Repr

/-- A fragment that waits for a port: class, destination, transport header, bytes of the message in it, the port if it is for one
(R279, R304). -/
structure TxFrame where
  cls : Nat
  dest : Nat
  hdr : BitVec 256
  len : Nat
  port : Option Nat := none
  deriving DecidableEq, Repr

/-- Deficit round robin of a port over classes 2..5: whose turn it is, and the bytes that each may still send (R277). -/
structure Drr where
  turn : Nat := 0
  deficits : List Nat := [16464, 0, 0, 0]
  deriving DecidableEq, Repr

/-- The transmitting side of transport: the next TSEQ of each class by session number, and fragments that have not left (R277, R279,
R280). -/
structure TxState where
  seqs : List (Nat × List Nat) := []
  waiting : List TxFrame := []
  drr : List (Nat × Drr) := []
  deriving DecidableEq, Repr

/-- PTP (R285, R286). -/
structure PtpState where
  state : TimeState := .acquiring
  good : Nat := 0
  offset : Int := 0
  holdoverAt : Time := 0
  deriving DecidableEq, Repr

/-- Mirror pair (R293..R306). -/
structure PairInfo where
  state : PairState := .unpaired
  acceptedAt : Option Time := none
  dissolve : Bool := false
  lastRx : Time := 0
  probing : Bool := false
  answered : Bool := false
  unresponsive : Bool := false
  /-- When the probes of R304 went out. -/
  probeAt : Time := 0
  /-- Digest of the last ended step here, and the peer's; the cells that ran reflected slices in that step (R302, R391). -/
  myDigest : Option (Nat × BitVec 64) := none
  peerDigest : Option (Nat × BitVec 64) := none
  digestCells : List Nat := []
  /-- Reflected results completed in the step in progress: REQ_TAG, passage IDs with distance or score (R302). -/
  results : List (Nat × List (Nat × Int)) := []
  acked : Nat := 0
  /-- Last step whose records this module has written, and the peer's (R302). -/
  written : Nat := 0
  peerWritten : Nat := 0
  /-- Slots whose committed state goes over after a digest mismatch (R303). -/
  resync : List Nat := []
  /-- What this module, as partner, kept back of reflected work that the peer has not confirmed: record entries by step, result
  writes, and completions (R301, R306). -/
  keptEntries : List (ClosingStep × List PendEntry) := []
  keptWrites : List (Nat × Output) := []
  keptDone : List (Nat × Nat × Nat) := []
  /-- Slots that the peer's last MIRROR_STEP names as in use and that carry nothing here: not allocated (R294). -/
  peerHeld : List Nat := []
  /-- Table versions that switched in the step in progress, for the next MIRROR_STEP (R299). -/
  switched : List (Nat × Nat) := []
  deriving DecidableEq, Repr

/-! ### Flash -/

/-- A stored image (R362) and its logical blocks. -/
structure Stored where
  id : Nat
  image : SignedImage
  fn : Nat
  at_ : Time
  blocks : List Nat
  damaged : Bool := false
  deriving DecidableEq, Repr

/-- Map entry of a logical block (R365): data superblock, pages programmed in order, read units of the last one that are padding, key
slot, class HOT. -/
structure MapEntry where
  block : Nat
  sb : Nat
  fill : Nat := 0
  pad : Nat := 0
  key : Nat := 0
  hot : Bool := false
  deriving DecidableEq, Repr

/-- Pages programmed one after another: SEQ and LBA of the first, read units with data, and the header fields that they share (R363). -/
structure PageRun where
  seq : Nat := 0
  lba : Nat
  units : Nat
  key : Nat
  cls : Nat
  log : Bool := false
  footer : Bool := false
  deriving DecidableEq, Repr

/-- A superblock that holds pages, until it is erased: its pages in program order; closed once its footer is programmed (R364). -/
structure Superblock where
  sb : Nat
  runs : List PageRun
  closed : Bool := false
  deriving DecidableEq, Repr

/-- Flash translation (R358..R375). -/
structure FlashState where
  stored : List Stored := []
  map : List MapEntry := []
  media : List Superblock := []
  /-- Log superblocks by logical block, oldest first (R365). -/
  logs : List (Nat × Nat) := []
  /-- Logical blocks of the module's own HOT objects, and the page that the next append to one writes (R359, R365). -/
  hot : List (Nat × Nat) := []
  hotNext : List (Nat × Nat) := []
  /-- SEQ of the last page programmed or map-log entry written (R363, R367). -/
  seq : Nat := 0
  trims : List (Nat × List Nat) := []
  clean : Bool := false
  retired : List Nat := []
  erasing : List Nat := []
  /-- Requests that had reads under way in a superblock when its map entry switched: superblock, function, tag (R366). -/
  oldReads : List (Nat × Nat × Nat) := []
  cycles : List (Nat × Nat) := []
  fencedTargets : List Nat := []
  tempHistory : List (Nat × Nat) := []
  nextChannel : Nat := 0
  deriving DecidableEq, Repr

/-! ### Faults -/

/-- The two reference cells of a suspect of a glint under way (R392). -/
structure GlintRefs where
  unit : Nat
  isLane : Bool
  a : Nat
  b : Nat
  deriving DecidableEq, Repr

/-- A glint under way or due (R392, R393): suspects, the sweep lanes among them, the references of one under way. -/
structure Glint where
  cells : List Nat := []
  lanes : List Nat := []
  refs : List GlintRefs := []
  deriving DecidableEq, Repr

/-- Fault records, fences, glints (Faults and checking). -/
structure FaultState where
  records : List (BitVec 256) := []
  fencedCells : List (Nat × BitVec 17) := []
  /-- Logical cell that a block's spare serves (R13). -/
  spareOf : List (Nat × Nat) := []
  fencedBlocks : List Nat := []
  fencedRegions : List Nat := []
  fencedDies : List Nat := []
  /-- Fenced dies that have dropped out of scan order, at a step boundary (R14). -/
  droppedDies : List Nat := []
  fencedLanes : List Nat := []
  fencedChannels : List Nat := []
  fencedStacks : List Nat := []
  suspects : Glint := {}
  active : Option Glint := none
  glintNo : Nat := 0
  transient : List (Nat × Time) := []
  recoveryEnds : Time := 0
  stalled : List Nat := []
  timer : Nat := 0
  canDown : Bool := false
  resync : List (Nat × Bool) := []
  deriving DecidableEq, Repr

/-! ### Start, power, security, pins -/

/-- A firmware set (R421). -/
structure FwSet where
  signer : Signer
  digestOk : Bool
  secVersion : Nat
  version : Nat
  deriving DecidableEq, Repr

/-- Module-level control: operating state, start in progress, identity (R353..R357, R397..R411). -/
structure Module where
  op : OpState := .off
  warm : Bool := false
  phase : Nat := 0
  startBegan : Time := 0
  hbmRetained : Bool := false
  hbmHeld : Bool := false
  warmFails : Nat := 0
  coldFails : Nat := 0
  lastReason : Nat := 0
  startCount : Nat := 0
  trained : List Nat := []
  forceCold : Bool := false
  darkCold : Bool := false
  heldReset : Bool := false
  stateSince : Time := 0
  baseHeld : Bool := false
  sets : List FwSet := [{ signer := .root 0, digestOk := true, secVersion := 0, version := 0 }]
  running : Nat := 0
  fuse : Nat := 0
  revoked : List Nat := []
  staged : Memory := []
  part24 : Bool := true
  serial : BitVec 256 := 0
  board : BitVec 16 := 0
  slot : Nat := 0
  resets : Nat := 0
  deriving DecidableEq, Repr

/-- Power, thermal and coolant readings (R412..R418, R447). -/
structure PowerInfo where
  state : PowerState := .p0
  mv : Nat := 0
  sag : Bool := false
  high : Bool := false
  cadence : List Nat := List.replicate 32 0
  junction : Int := 0
  stackTemp : Int := 0
  /-- Sensors at or above their warning temperature, numbered as Machine/Power.lean says (R418, R440). -/
  warned : List Nat := []
  flow : Nat := 0
  inlet : Int := 0
  /-- Coolant flow below, or inlet temperature above, its warning limit (R440, R447). -/
  flowLow : Bool := false
  inletHigh : Bool := false
  idle : Bool := false
  deepDim : Bool := false
  /-- Cadence that the last boundary scaled the ledgers by, 0 while it did not (R48). -/
  proj : Nat := 0
  /-- Lowest cadence since that boundary, 0 while it did not scale (R48). -/
  dimLow : Nat := 0
  /-- Core rail of the compute dies in mV, 0 while it is off (R17). -/
  rail : Nat := 0
  deriving DecidableEq, Repr

/-- An SPDM session (R426). -/
structure SpdmSession where
  etnan : Bool
  chan : Nat
  sid : Nat
  secured : Bool := false
  epoch : Nat := 0
  deriving DecidableEq, Repr

/-- Lifecycle, keys, debug, SPDM (R419..R431). -/
structure SecState where
  life : Lifecycle := .opened
  debug : DebugLevel := .d0
  expiry : Time := 0
  kek : Bool := false
  identity : Bool := true
  slots : List (Nat × BitVec 384) := []
  erased : List (Nat × Nat) := []
  roleKeys : List (Nat × List Byte) := [(1, List.replicate 48 0), (2, List.replicate 48 0)]
  imageKeys : List Byte := []
  debugKeys : List Byte := []
  spdm : List SpdmSession := []
  versionSent : List (Bool × Nat × Nat) := []
  provToken : List Byte := []
  deriving DecidableEq, Repr

/-- Sideband outputs (R437..R442); `true` is a high level. -/
structure Pins where
  pwrGood : Bool := false
  alertN : Bool := true
  thermTripN : Bool := true
  ppsOut : Bool := false
  deriving DecidableEq, Repr

/-! ### Object dictionary -/

/-- A dictionary session (R337..R339, R346). -/
structure DictSession where
  transport : Transport
  channel : Nat
  station : Nat
  role : Role := .observer
  lastPdu : Time := 0
  selects : List (Nat × Nat) := []
  /-- Entry, value, next offset, time of the last segment (R346). -/
  snapshot : Option (Nat × List Byte × Nat × Time) := none
  /-- Entry, total length, bytes held, time of the last segment. -/
  partialW : Option (Nat × Nat × List Byte × Time) := none
  nonce : Option (BitVec 256 × Role × Time) := none
  debugNonce : Option (BitVec 256 × Time) := none
  deriving DecidableEq, Repr

/-- A frame of the CAN FD transmit queue (R352): kind 1 event, 2 response, 7 heartbeat. -/
structure CanFrame where
  kind : Nat
  entry : Nat := 0
  station : Nat := 0
  bytes : List Byte
  deriving DecidableEq, Repr

/-- The dictionary: integer entries, BLOB entries, held next-start values, sessions, the CAN queue. -/
structure Dict where
  vals : List (Nat × Nat) := []
  held : List (Nat × Nat) := []
  sessions : List DictSession := []
  fails : List (Transport × Nat) := []
  lockout : List (Transport × Time) := []
  canQueue : List CanFrame := []
  canWaiting : List CanFrame := []
  canPending : List Nat := []
  deriving DecidableEq, Repr

/-! ### The whole state -/

/-- The state of the module. `pending` is the queue of waiting commands; `freeCtr` and `out` are the model's own. -/
structure State where
  now : Time := 0
  pending : List Instr := []
  freeCtr : Nat := 0
  out : List Output := []
  mod : Module := {}
  dict : Dict := {}
  host : HostIf := {}
  reqs : List Request := []
  adm : Admission := {}
  pools : Pools := {}
  seq : SeqTable := {}
  step : StepState := {}
  cells : CellState := {}
  tiers : TierState := {}
  sweep : SweepState := {}
  index : IndexState := {}
  img : ImageState := {}
  pool : PoolState := {}
  fab : FabState := {}
  tx : TxState := {}
  ptp : PtpState := {}
  pair : PairInfo := {}
  flash : FlashState := {}
  faults : FaultState := {}
  power : PowerInfo := {}
  sec : SecState := {}
  pins : Pins := {}
  deriving DecidableEq, Repr

/-- Why a step faults. No command of this block ends in a fault; the one reason is kept for a state no run reaches. -/
inductive Fault where
  /-- Raised by nothing: the block has no exception entry (log 3); safe. -/
  | unreachable
  deriving DecidableEq, Repr

/-- Why a command has no meaning. -/
inductive Refusal where
  /-- Raised by an arm of `exec` that is not written yet; safe. -/
  | notModelled (mnemonic : String)
  deriving DecidableEq, Repr

/-- The module right after reset: unpowered, every entry and register at its reset value, nothing pending. -/
def State.reset : State := {}

end Sys2Proof.Machine
end

