-- ==== Sys2Proof/Machine/Entries.lean ====
section
/-!
DEFINITION. The object dictionary's entries: type, access, roles, default, range and effect of each (R333..R335, R343 and
the entry tables R19, R21, R57, R98, R101, R103, R105, R143, R172, R203, R239, R270, R308, R322, R332, R357, R375, R396,
R411, R434, R450).
-/
namespace Sys2Proof.Machine

/-- Types of R334. -/
inductive EType where
  | bool | u8 | u16 | u32 | u64 | i32 | f32 | time | str | blob
  deriving DecidableEq, Repr

/-- Access codes of R335. -/
inductive Access where
  | const | ro | rw | wo
  deriving DecidableEq, Repr

/-- A run of `count` entries from `key` = index * 256 + subindex on. `effect`: 0 as stated, 1 next start, 2 per session
(R343). `lo`, `hi` bound a write of an unsigned type; `dflt` is the default as an unsigned integer. -/
structure EntryRow where
  key : Nat
  count : Nat
  ty : EType
  acc : Access
  rd : Role
  wr : Role
  dflt : Nat
  maxLen : Nat
  effect : Nat
  lo : Nat
  hi : Nat
  deriving DecidableEq, Repr

/-- Entries 0x1000..0x1FFF, part 1. -/
def odRows1a : List EntryRow := [
  ⟨0x100001, 1, .u32, .const, .observer, .observer, 61653, 4, 0, 0, 4294967295⟩,
  ⟨0x100002, 1, .str, .const, .observer, .observer, 0, 14, 0, 0, 0⟩,
  ⟨0x100003, 1, .u64, .const, .observer, .observer, 0, 8, 0, 0, 18446744073709551615⟩,
  ⟨0x100004, 1, .str, .const, .observer, .observer, 0, 32, 0, 0, 0⟩,
  ⟨0x100005, 1, .u16, .const, .observer, .observer, 0, 2, 0, 0, 65535⟩,
  ⟨0x100006, 1, .u32, .ro, .observer, .observer, 0, 4, 0, 0, 4294967295⟩,
  ⟨0x100007, 1, .u16, .const, .observer, .observer, 1, 2, 0, 0, 65535⟩,
  ⟨0x101001, 1, .u8, .rw, .observer, .operator, 0, 1, 1, 0, 1⟩,
  ⟨0x101002, 1, .u8, .ro, .observer, .observer, 0, 1, 0, 0, 255⟩,
  ⟨0x102001, 1, .u8, .ro, .observer, .observer, 2, 1, 0, 0, 255⟩,
  ⟨0x102002, 1, .u8, .wo, .observer, .operator, 0, 1, 0, 0, 255⟩,
  ⟨0x102003, 1, .bool, .rw, .observer, .custodian, 0, 1, 1, 0, 1⟩,
  ⟨0x102004, 1, .u8, .ro, .observer, .observer, 0, 1, 0, 0, 255⟩,
  ⟨0x102005, 1, .time, .ro, .observer, .observer, 0, 8, 0, 0, 18446744073709551615⟩,
  ⟨0x103001, 1, .u8, .rw, .observer, .custodian, 1, 1, 1, 1, 127⟩,
  ⟨0x103002, 1, .u16, .rw, .observer, .operator, 100, 2, 0, 0, 10000⟩,
  ⟨0x103003, 1, .bool, .rw, .observer, .custodian, 1, 1, 1, 0, 1⟩,
  ⟨0x103004, 1, .u8, .rw, .observer, .custodian, 2, 1, 0, 0, 2⟩,
  ⟨0x103005, 1, .u8, .rw, .observer, .custodian, 2, 1, 0, 0, 2⟩,
  ⟨0x103010, 1, .u64, .ro, .observer, .observer, 0, 8, 0, 0, 18446744073709551615⟩,
  ⟨0x103011, 1, .u64, .ro, .observer, .observer, 0, 8, 0, 0, 18446744073709551615⟩,
  ⟨0x103012, 1, .u64, .ro, .observer, .observer, 0, 8, 0, 0, 18446744073709551615⟩,
  ⟨0x103013, 1, .u64, .ro, .observer, .observer, 0, 8, 0, 0, 18446744073709551615⟩,
  ⟨0x104001, 1, .u8, .ro, .observer, .observer, 0, 1, 0, 0, 255⟩,
  ⟨0x104002, 1, .u8, .ro, .observer, .observer, 0, 1, 0, 0, 255⟩,
  ⟨0x104003, 1, .u8, .ro, .observer, .observer, 0, 1, 0, 0, 255⟩,
  ⟨0x104004, 1, .u8, .ro, .observer, .observer, 0, 1, 0, 0, 255⟩,
  ⟨0x104005, 1, .u32, .ro, .observer, .observer, 0, 4, 0, 0, 4294967295⟩,
  ⟨0x104006, 1, .bool, .rw, .observer, .custodian, 1, 1, 1, 0, 1⟩,
  ⟨0x104007, 1, .u16, .ro, .observer, .observer, 0, 2, 0, 0, 65535⟩,
  ⟨0x104008, 1, .bool, .ro, .observer, .observer, 0, 1, 0, 0, 1⟩,
  ⟨0x104009, 1, .u64, .ro, .observer, .observer, 0, 8, 0, 0, 18446744073709551615⟩,
  ⟨0x105001, 1, .u8, .ro, .observer, .observer, 0, 1, 0, 0, 255⟩,
  ⟨0x105002, 1, .u64, .ro, .observer, .observer, 0, 8, 0, 0, 18446744073709551615⟩,
  ⟨0x110001, 1, .u8, .ro, .observer, .observer, 0, 1, 0, 0, 255⟩,
  ⟨0x110002, 1, .u64, .ro, .observer, .observer, 0, 8, 0, 0, 18446744073709551615⟩,
  ⟨0x110003, 1, .u64, .ro, .observer, .observer, 0, 8, 0, 0, 18446744073709551615⟩,
  ⟨0x110004, 1, .u64, .ro, .observer, .observer, 0, 8, 0, 0, 18446744073709551615⟩,
  ⟨0x110005, 1, .u64, .ro, .observer, .observer, 0, 8, 0, 0, 18446744073709551615⟩,
  ⟨0x110006, 1, .u64, .ro, .observer, .observer, 0, 8, 0, 0, 18446744073709551615⟩]

/-- Entries 0x1000..0x1FFF, part 2. -/
def odRows1b : List EntryRow := [
  ⟨0x110007, 1, .u64, .ro, .observer, .observer, 0, 8, 0, 0, 18446744073709551615⟩]

/-- Entries 0x2000..0x2FFF, part 1. -/
def odRows2a : List EntryRow := [
  ⟨0x200001, 1, .u16, .rw, .observer, .operator, 9900, 2, 0, 5000, 9900⟩,
  ⟨0x200002, 1, .u32, .const, .observer, .observer, 100000, 4, 0, 0, 4294967295⟩,
  ⟨0x200003, 1, .u32, .const, .observer, .observer, 50000, 4, 0, 0, 4294967295⟩,
  ⟨0x200004, 1, .u8, .const, .observer, .observer, 8, 1, 0, 0, 255⟩,
  ⟨0x200005, 1, .u32, .ro, .observer, .observer, 0, 4, 0, 0, 4294967295⟩,
  ⟨0x200010, 7, .u16, .ro, .observer, .observer, 0, 2, 0, 0, 65535⟩,
  ⟨0x200017, 1, .u16, .ro, .observer, .observer, 0, 2, 0, 0, 65535⟩,
  ⟨0x200020, 1, .u64, .ro, .observer, .observer, 0, 8, 0, 0, 18446744073709551615⟩,
  ⟨0x200021, 1, .u64, .ro, .observer, .observer, 0, 8, 0, 0, 18446744073709551615⟩,
  ⟨0x200022, 1, .u64, .ro, .observer, .observer, 0, 8, 0, 0, 18446744073709551615⟩,
  ⟨0x200023, 1, .u64, .ro, .observer, .observer, 0, 8, 0, 0, 18446744073709551615⟩,
  ⟨0x210001, 64, .bool, .rw, .observer, .operator, 1, 1, 0, 0, 1⟩]

/-- Entries 0x3000..0x3FFF, part 1. -/
def odRows3a : List EntryRow := [
  ⟨0x300001, 1, .u32, .rw, .observer, .operator, 12000, 4, 0, 8000, 40000⟩,
  ⟨0x300002, 1, .u64, .ro, .observer, .observer, 0, 8, 0, 0, 18446744073709551615⟩,
  ⟨0x300003, 1, .time, .ro, .observer, .observer, 0, 8, 0, 0, 18446744073709551615⟩,
  ⟨0x300004, 1, .u32, .ro, .observer, .observer, 0, 4, 0, 0, 4294967295⟩,
  ⟨0x300005, 1, .u32, .ro, .observer, .observer, 0, 4, 0, 0, 4294967295⟩,
  ⟨0x300006, 1, .u32, .rw, .observer, .operator, 100000, 4, 0, 20000, 1000000⟩,
  ⟨0x301001, 1, .u16, .ro, .observer, .observer, 0, 2, 0, 0, 65535⟩,
  ⟨0x301002, 1, .u16, .ro, .observer, .observer, 0, 2, 0, 0, 65535⟩,
  ⟨0x301003, 1, .bool, .ro, .observer, .observer, 0, 1, 0, 0, 1⟩,
  ⟨0x301004, 1, .u8, .ro, .observer, .observer, 0, 1, 0, 0, 255⟩,
  ⟨0x301005, 1, .u64, .ro, .observer, .observer, 0, 8, 0, 0, 18446744073709551615⟩,
  ⟨0x301006, 1, .u16, .ro, .observer, .observer, 0, 2, 0, 0, 65535⟩,
  ⟨0x301007, 1, .u32, .ro, .observer, .observer, 1, 4, 0, 0, 4294967295⟩,
  ⟨0x301008, 1, .u16, .ro, .observer, .observer, 256, 2, 0, 0, 65535⟩,
  ⟨0x302001, 1, .u64, .ro, .observer, .observer, 0, 8, 0, 0, 18446744073709551615⟩,
  ⟨0x302002, 1, .u64, .ro, .observer, .observer, 0, 8, 0, 0, 18446744073709551615⟩,
  ⟨0x302003, 1, .u64, .ro, .observer, .observer, 0, 8, 0, 0, 18446744073709551615⟩,
  ⟨0x302004, 1, .u64, .ro, .observer, .observer, 0, 8, 0, 0, 18446744073709551615⟩,
  ⟨0x302005, 1, .u64, .ro, .observer, .observer, 0, 8, 0, 0, 18446744073709551615⟩,
  ⟨0x302006, 1, .u64, .ro, .observer, .observer, 0, 8, 0, 0, 18446744073709551615⟩,
  ⟨0x302007, 1, .u64, .ro, .observer, .observer, 0, 8, 0, 0, 18446744073709551615⟩,
  ⟨0x302008, 1, .u64, .ro, .observer, .observer, 0, 8, 0, 0, 18446744073709551615⟩,
  ⟨0x302009, 1, .u64, .ro, .observer, .observer, 0, 8, 0, 0, 18446744073709551615⟩,
  ⟨0x310001, 1, .u32, .rw, .observer, .operator, 200000, 4, 0, 20000, 1000000⟩,
  ⟨0x310002, 1, .u32, .rw, .observer, .operator, 7680000, 4, 0, 0, 38016000⟩,
  ⟨0x310003, 1, .u32, .const, .observer, .observer, 200000, 4, 0, 0, 4294967295⟩,
  ⟨0x310004, 1, .u32, .rw, .observer, .operator, 100000, 4, 0, 10000, 1000000⟩,
  ⟨0x310005, 1, .u16, .const, .observer, .observer, 64, 2, 0, 0, 65535⟩,
  ⟨0x311001, 1, .u64, .ro, .observer, .observer, 0, 8, 0, 0, 18446744073709551615⟩,
  ⟨0x311002, 1, .u64, .ro, .observer, .observer, 0, 8, 0, 0, 18446744073709551615⟩,
  ⟨0x311003, 1, .u64, .ro, .observer, .observer, 0, 8, 0, 0, 18446744073709551615⟩,
  ⟨0x311004, 1, .u64, .ro, .observer, .observer, 0, 8, 0, 0, 18446744073709551615⟩,
  ⟨0x311005, 1, .u64, .ro, .observer, .observer, 0, 8, 0, 0, 18446744073709551615⟩,
  ⟨0x311006, 1, .u64, .ro, .observer, .observer, 0, 8, 0, 0, 18446744073709551615⟩,
  ⟨0x311007, 1, .u64, .ro, .observer, .observer, 0, 8, 0, 0, 18446744073709551615⟩,
  ⟨0x311008, 1, .u64, .ro, .observer, .observer, 0, 8, 0, 0, 18446744073709551615⟩]

/-- Entries 0x4000..0x4FFF, part 1. -/
def odRows4a : List EntryRow := [
  ⟨0x400001, 1, .u8, .ro, .observer, .observer, 0, 1, 0, 0, 255⟩,
  ⟨0x400002, 4, .u32, .ro, .observer, .observer, 0, 4, 0, 0, 4294967295⟩,
  ⟨0x400006, 1, .u8, .ro, .observer, .observer, 0, 1, 0, 0, 255⟩,
  ⟨0x400007, 1, .u16, .const, .observer, .observer, 4000, 2, 0, 0, 65535⟩,
  ⟨0x400008, 1, .u16, .const, .observer, .observer, 16384, 2, 0, 0, 65535⟩,
  ⟨0x400009, 1, .u16, .const, .observer, .observer, 64, 2, 0, 0, 65535⟩,
  ⟨0x401001, 1, .u64, .ro, .observer, .observer, 0, 8, 0, 0, 18446744073709551615⟩,
  ⟨0x401002, 1, .u64, .ro, .observer, .observer, 0, 8, 0, 0, 18446744073709551615⟩,
  ⟨0x401003, 1, .u64, .ro, .observer, .observer, 0, 8, 0, 0, 18446744073709551615⟩,
  ⟨0x401004, 1, .u64, .ro, .observer, .observer, 0, 8, 0, 0, 18446744073709551615⟩,
  ⟨0x401005, 1, .u64, .ro, .observer, .observer, 0, 8, 0, 0, 18446744073709551615⟩,
  ⟨0x401006, 1, .u64, .ro, .observer, .observer, 0, 8, 0, 0, 18446744073709551615⟩,
  ⟨0x401007, 1, .u64, .ro, .observer, .observer, 0, 8, 0, 0, 18446744073709551615⟩,
  ⟨0x401008, 1, .u64, .ro, .observer, .observer, 0, 8, 0, 0, 18446744073709551615⟩,
  ⟨0x401009, 1, .u64, .ro, .observer, .observer, 0, 8, 0, 0, 18446744073709551615⟩,
  ⟨0x410001, 1, .u16, .ro, .observer, .observer, 0, 2, 0, 0, 65535⟩,
  ⟨0x410002, 1, .u32, .ro, .observer, .observer, 0, 4, 0, 0, 4294967295⟩,
  ⟨0x420001, 1, .bool, .rw, .observer, .operator, 1, 1, 0, 0, 1⟩,
  ⟨0x420002, 1, .u8, .rw, .observer, .operator, 8, 1, 0, 1, 8⟩,
  ⟨0x420003, 1, .u8, .rw, .observer, .operator, 32, 1, 0, 1, 32⟩,
  ⟨0x420004, 1, .u32, .const, .observer, .observer, 10000, 4, 0, 0, 4294967295⟩,
  ⟨0x420005, 1, .u64, .ro, .observer, .observer, 0, 8, 0, 0, 18446744073709551615⟩,
  ⟨0x420006, 1, .u32, .ro, .observer, .observer, 0, 4, 0, 0, 4294967295⟩,
  ⟨0x420007, 1, .u16, .rw, .observer, .operator, 0, 2, 2, 0, 65535⟩,
  ⟨0x420008, 1, .blob, .ro, .operator, .observer, 0, 64, 0, 0, 0⟩,
  ⟨0x421001, 1, .u64, .ro, .observer, .observer, 0, 8, 0, 0, 18446744073709551615⟩,
  ⟨0x421002, 1, .u64, .ro, .observer, .observer, 0, 8, 0, 0, 18446744073709551615⟩,
  ⟨0x421003, 1, .u64, .ro, .observer, .observer, 0, 8, 0, 0, 18446744073709551615⟩,
  ⟨0x421004, 1, .u64, .ro, .observer, .observer, 0, 8, 0, 0, 18446744073709551615⟩,
  ⟨0x421005, 1, .u64, .ro, .observer, .observer, 0, 8, 0, 0, 18446744073709551615⟩,
  ⟨0x421006, 1, .u64, .ro, .observer, .observer, 0, 8, 0, 0, 18446744073709551615⟩,
  ⟨0x421007, 1, .u64, .ro, .observer, .observer, 0, 8, 0, 0, 18446744073709551615⟩,
  ⟨0x430001, 1, .u8, .ro, .observer, .observer, 0, 1, 0, 0, 255⟩,
  ⟨0x430002, 1, .u32, .ro, .observer, .observer, 1476395008, 4, 0, 0, 4294967295⟩,
  ⟨0x430003, 1, .u8, .ro, .observer, .observer, 0, 1, 0, 0, 255⟩]

/-- Entries 0x5000..0x5FFF, part 1. -/
def odRows5a : List EntryRow := [
  ⟨0x500001, 1, .u32, .rw, .observer, .custodian, 512, 4, 1, 0, 512⟩,
  ⟨0x500002, 1, .u32, .rw, .observer, .custodian, 16, 4, 1, 0, 64⟩,
  ⟨0x500003, 1, .u32, .rw, .observer, .operator, 49000000, 4, 0, 0, 123255000⟩,
  ⟨0x500004, 1, .u32, .rw, .observer, .operator, 20000, 4, 0, 5000, 100000⟩,
  ⟨0x500005, 1, .u32, .rw, .observer, .operator, 4096, 4, 0, 64, 1000000⟩,
  ⟨0x500006, 1, .u8, .rw, .observer, .operator, 8, 1, 0, 1, 8⟩,
  ⟨0x500007, 1, .u32, .rw, .observer, .operator, 60, 4, 0, 10, 3600⟩,
  ⟨0x500008, 1, .u32, .ro, .observer, .observer, 0, 4, 0, 0, 4294967295⟩,
  ⟨0x500009, 1, .u32, .const, .observer, .observer, 65536, 4, 0, 0, 4294967295⟩,
  ⟨0x50000A, 1, .u16, .ro, .observer, .observer, 0, 2, 0, 0, 65535⟩,
  ⟨0x501001, 1, .u64, .ro, .observer, .observer, 0, 8, 0, 0, 18446744073709551615⟩,
  ⟨0x501002, 1, .u64, .ro, .observer, .observer, 0, 8, 0, 0, 18446744073709551615⟩,
  ⟨0x501003, 1, .u64, .ro, .observer, .observer, 0, 8, 0, 0, 18446744073709551615⟩,
  ⟨0x501004, 1, .u64, .ro, .observer, .observer, 0, 8, 0, 0, 18446744073709551615⟩,
  ⟨0x501005, 1, .u64, .ro, .observer, .observer, 0, 8, 0, 0, 18446744073709551615⟩,
  ⟨0x501006, 1, .u64, .ro, .observer, .observer, 0, 8, 0, 0, 18446744073709551615⟩,
  ⟨0x501007, 1, .u64, .ro, .observer, .observer, 0, 8, 0, 0, 18446744073709551615⟩,
  ⟨0x501008, 1, .u64, .ro, .observer, .observer, 0, 8, 0, 0, 18446744073709551615⟩,
  ⟨0x501009, 1, .u64, .ro, .observer, .observer, 0, 8, 0, 0, 18446744073709551615⟩,
  ⟨0x50100A, 1, .u64, .ro, .observer, .observer, 0, 8, 0, 0, 18446744073709551615⟩,
  ⟨0x50100B, 1, .u64, .ro, .observer, .observer, 0, 8, 0, 0, 18446744073709551615⟩,
  ⟨0x50100C, 1, .u64, .ro, .observer, .observer, 0, 8, 0, 0, 18446744073709551615⟩,
  ⟨0x50100D, 1, .u64, .ro, .observer, .observer, 0, 8, 0, 0, 18446744073709551615⟩,
  ⟨0x50100E, 1, .u64, .ro, .observer, .observer, 0, 8, 0, 0, 18446744073709551615⟩,
  ⟨0x50100F, 1, .u64, .ro, .observer, .observer, 0, 8, 0, 0, 18446744073709551615⟩]

/-- Entries 0x6000..0x6FFF, part 1. -/
def odRows6a : List EntryRow := [
  ⟨0x601001, 1, .u32, .rw, .observer, .operator, 24000, 4, 0, 0, 48000⟩,
  ⟨0x601002, 1, .u32, .rw, .observer, .operator, 30000, 4, 0, 1000, 56980⟩,
  ⟨0x601003, 1, .u32, .ro, .observer, .observer, 4980, 4, 0, 0, 4294967295⟩,
  ⟨0x601101, 6, .u32, .ro, .observer, .observer, 0, 4, 0, 0, 4294967295⟩,
  ⟨0x601201, 64, .u32, .rw, .observer, .custodian, 0, 4, 1, 0, 65536⟩,
  ⟨0x602001, 16, .u64, .ro, .observer, .observer, 0, 8, 0, 0, 18446744073709551615⟩,
  ⟨0x602101, 1, .u64, .ro, .observer, .observer, 0, 8, 0, 0, 18446744073709551615⟩,
  ⟨0x610001, 1, .u32, .ro, .observer, .observer, 0, 4, 0, 0, 4294967295⟩,
  ⟨0x610002, 1, .u32, .const, .observer, .observer, 3000, 4, 0, 0, 4294967295⟩,
  ⟨0x610003, 1, .u32, .const, .observer, .observer, 560000, 4, 0, 0, 4294967295⟩,
  ⟨0x610004, 1, .u32, .ro, .observer, .observer, 0, 4, 0, 0, 4294967295⟩,
  ⟨0x610005, 1, .u32, .ro, .observer, .observer, 0, 4, 0, 0, 4294967295⟩,
  ⟨0x610006, 1, .u16, .ro, .observer, .observer, 0, 2, 0, 0, 65535⟩,
  ⟨0x610007, 1, .u32, .rw, .observer, .custodian, 2048, 4, 0, 256, 65536⟩,
  ⟨0x610008, 1, .u32, .ro, .observer, .observer, 0, 4, 0, 0, 4294967295⟩,
  ⟨0x610009, 1, .u8, .ro, .observer, .observer, 0, 1, 0, 0, 255⟩,
  ⟨0x61000A, 1, .u8, .ro, .observer, .observer, 0, 1, 0, 0, 255⟩,
  ⟨0x61000B, 1, .u64, .ro, .observer, .observer, 0, 8, 0, 0, 18446744073709551615⟩,
  ⟨0x61000C, 1, .u64, .ro, .observer, .observer, 0, 8, 0, 0, 18446744073709551615⟩,
  ⟨0x611001, 32, .u64, .ro, .observer, .observer, 0, 8, 0, 0, 18446744073709551615⟩,
  ⟨0x611101, 32, .u64, .ro, .observer, .observer, 0, 8, 0, 0, 18446744073709551615⟩,
  ⟨0x611201, 32, .u64, .ro, .observer, .observer, 0, 8, 0, 0, 18446744073709551615⟩,
  ⟨0x612001, 1, .blob, .ro, .observer, .observer, 0, 256, 0, 0, 0⟩,
  ⟨0x613001, 1, .u32, .ro, .observer, .observer, 0, 4, 0, 0, 4294967295⟩,
  ⟨0x613002, 1, .u32, .rw, .observer, .operator, 0, 4, 2, 0, 4294967295⟩,
  ⟨0x613003, 1, .blob, .ro, .operator, .observer, 0, 32, 0, 0, 0⟩,
  ⟨0x613004, 1, .u32, .wo, .observer, .custodian, 0, 4, 0, 0, 4294967295⟩,
  ⟨0x620001, 1, .u32, .rw, .observer, .custodian, 0, 4, 0, 0, 4294967295⟩,
  ⟨0x620002, 1, .blob, .wo, .observer, .custodian, 0, 4080, 0, 0, 0⟩,
  ⟨0x620003, 1, .u8, .wo, .observer, .custodian, 0, 1, 0, 0, 255⟩]

/-- Entries 0x7000..0x7FFF, part 1. -/
def odRows7a : List EntryRow := [
  ⟨0x700001, 1, .u64, .ro, .observer, .observer, 0, 8, 0, 0, 18446744073709551615⟩,
  ⟨0x700002, 1, .u32, .rw, .observer, .operator, 0, 4, 2, 0, 4294967295⟩,
  ⟨0x700003, 1, .blob, .ro, .observer, .observer, 0, 32, 0, 0, 0⟩,
  ⟨0x700004, 1, .time, .ro, .observer, .observer, 0, 8, 0, 0, 18446744073709551615⟩,
  ⟨0x700005, 1, .u16, .ro, .observer, .observer, 0, 2, 0, 0, 65535⟩,
  ⟨0x700006, 1, .blob, .ro, .observer, .observer, 0, 3072, 0, 0, 0⟩,
  ⟨0x701001, 1, .u64, .ro, .observer, .observer, 0, 8, 0, 0, 18446744073709551615⟩,
  ⟨0x701002, 1, .u64, .ro, .observer, .observer, 0, 8, 0, 0, 18446744073709551615⟩,
  ⟨0x701003, 1, .u64, .ro, .observer, .observer, 0, 8, 0, 0, 18446744073709551615⟩,
  ⟨0x701004, 1, .u16, .ro, .observer, .observer, 0, 2, 0, 0, 65535⟩,
  ⟨0x701005, 1, .u8, .ro, .observer, .observer, 0, 1, 0, 0, 255⟩,
  ⟨0x701006, 1, .u8, .ro, .observer, .observer, 0, 1, 0, 0, 255⟩,
  ⟨0x701007, 1, .u64, .ro, .observer, .observer, 0, 8, 0, 0, 18446744073709551615⟩,
  ⟨0x701008, 1, .u64, .ro, .observer, .observer, 0, 8, 0, 0, 18446744073709551615⟩,
  ⟨0x701009, 1, .u64, .ro, .observer, .observer, 0, 8, 0, 0, 18446744073709551615⟩,
  ⟨0x70100A, 1, .u64, .ro, .observer, .observer, 0, 8, 0, 0, 18446744073709551615⟩,
  ⟨0x70100B, 1, .u64, .ro, .observer, .observer, 0, 8, 0, 0, 18446744073709551615⟩,
  ⟨0x70100C, 1, .u64, .ro, .observer, .observer, 0, 8, 0, 0, 18446744073709551615⟩,
  ⟨0x70100D, 1, .u64, .ro, .observer, .observer, 0, 8, 0, 0, 18446744073709551615⟩,
  ⟨0x702001, 1, .u16, .wo, .observer, .operator, 0, 2, 0, 0, 65535⟩,
  ⟨0x702002, 1, .u32, .rw, .observer, .operator, 64, 4, 0, 1, 1000000⟩,
  ⟨0x702003, 1, .f32, .rw, .observer, .operator, 1082130432, 4, 0, 0, 4294967295⟩,
  ⟨0x703001, 1, .u8, .wo, .observer, .custodian, 0, 1, 0, 0, 255⟩,
  ⟨0x704001, 6, .u64, .ro, .observer, .observer, 0, 8, 0, 0, 18446744073709551615⟩]

/-- Entries 0x8000..0x8FFF, part 1. -/
def odRows8a : List EntryRow := [
  ⟨0x800001, 1, .u8, .ro, .observer, .observer, 0, 1, 0, 0, 255⟩,
  ⟨0x800002, 1, .u8, .ro, .observer, .observer, 0, 1, 0, 0, 255⟩,
  ⟨0x800003, 1, .u8, .wo, .observer, .custodian, 0, 1, 0, 0, 255⟩,
  ⟨0x800004, 1, .blob, .wo, .observer, .custodian, 0, 4715, 0, 0, 0⟩,
  ⟨0x800005, 1, .blob, .wo, .observer, .custodian, 0, 8192, 0, 0, 0⟩,
  ⟨0x800006, 1, .blob, .ro, .custodian, .observer, 0, 32, 2, 0, 0⟩,
  ⟨0x800007, 1, .u32, .ro, .observer, .observer, 0, 4, 0, 0, 4294967295⟩,
  ⟨0x800008, 1, .time, .ro, .observer, .observer, 0, 8, 0, 0, 18446744073709551615⟩,
  ⟨0x801001, 64, .u8, .wo, .observer, .custodian, 0, 1, 0, 0, 255⟩,
  ⟨0x802001, 2, .blob, .wo, .observer, .custodian, 0, 48, 0, 0, 0⟩,
  ⟨0x802003, 1, .blob, .rw, .observer, .custodian, 0, 10368, 0, 0, 0⟩,
  ⟨0x802004, 1, .blob, .rw, .observer, .custodian, 0, 10368, 0, 0, 0⟩]

/-- Entries 0x9000..0x9FFF, part 1. -/
def odRows9a : List EntryRow := [
  ⟨0x900001, 1, .u8, .ro, .observer, .observer, 0, 1, 0, 0, 255⟩,
  ⟨0x900002, 1, .u32, .ro, .observer, .observer, 0, 4, 0, 0, 4294967295⟩,
  ⟨0x900003, 1, .u16, .rw, .observer, .operator, 3200, 2, 0, 2600, 3200⟩,
  ⟨0x900004, 1, .u8, .wo, .observer, .custodian, 0, 1, 0, 0, 255⟩,
  ⟨0x900005, 1, .u16, .const, .observer, .observer, 2600, 2, 0, 0, 65535⟩,
  ⟨0x900006, 1, .u32, .ro, .observer, .observer, 0, 4, 0, 0, 4294967295⟩,
  ⟨0x900007, 1, .u32, .ro, .observer, .observer, 0, 4, 0, 0, 4294967295⟩,
  ⟨0x900008, 1, .i32, .ro, .observer, .observer, 0, 4, 0, 0, 4294967295⟩,
  ⟨0x900009, 1, .i32, .ro, .observer, .observer, 0, 4, 0, 0, 4294967295⟩,
  ⟨0x90000A, 1, .u64, .ro, .observer, .observer, 0, 8, 0, 0, 18446744073709551615⟩,
  ⟨0x90000B, 1, .u64, .ro, .observer, .observer, 0, 8, 0, 0, 18446744073709551615⟩,
  ⟨0x90000C, 1, .u64, .ro, .observer, .observer, 0, 8, 0, 0, 18446744073709551615⟩,
  ⟨0x90000D, 1, .u64, .ro, .observer, .observer, 0, 8, 0, 0, 18446744073709551615⟩,
  ⟨0x90000E, 1, .i32, .ro, .observer, .observer, 0, 4, 0, 0, 4294967295⟩,
  ⟨0x90000F, 1, .u32, .ro, .observer, .observer, 0, 4, 0, 0, 4294967295⟩,
  ⟨0x900010, 1, .u64, .ro, .observer, .observer, 0, 8, 0, 0, 18446744073709551615⟩,
  ⟨0x900011, 1, .u64, .ro, .observer, .observer, 0, 8, 0, 0, 18446744073709551615⟩,
  ⟨0x901001, 32, .u32, .ro, .observer, .observer, 0, 4, 0, 0, 4294967295⟩]

/-- Entries 0xA000..0xAFFF, part 1. -/
def odRowsAa : List EntryRow := [
  ⟨0xA00001, 1, .u32, .rw, .observer, .custodian, 0, 4, 1, 0, 4294967295⟩,
  ⟨0xA00002, 1, .u32, .ro, .observer, .observer, 0, 4, 0, 0, 4294967295⟩,
  ⟨0xA00003, 1, .u16, .ro, .observer, .observer, 0, 2, 0, 0, 65535⟩,
  ⟨0xA00004, 1, .u64, .ro, .observer, .observer, 0, 8, 0, 0, 18446744073709551615⟩,
  ⟨0xA00005, 1, .u32, .ro, .observer, .observer, 0, 4, 0, 0, 4294967295⟩,
  ⟨0xA00006, 1, .u16, .ro, .observer, .observer, 0, 2, 0, 0, 65535⟩,
  ⟨0xA00007, 1, .u8, .ro, .observer, .observer, 0, 1, 0, 0, 255⟩,
  ⟨0xA00008, 1, .i32, .ro, .observer, .observer, 0, 4, 0, 0, 4294967295⟩,
  ⟨0xA00009, 1, .u8, .rw, .observer, .custodian, 0, 1, 1, 0, 127⟩,
  ⟨0xA01001, 1, .u32, .rw, .observer, .operator, 64000000, 4, 0, 0, 100000000⟩,
  ⟨0xA01002, 1, .u32, .rw, .observer, .operator, 20000, 4, 0, 2000, 100000⟩,
  ⟨0xA01003, 1, .u8, .rw, .observer, .operator, 2, 1, 0, 0, 2⟩,
  ⟨0xA02001, 1, .u32, .wo, .observer, .operator, 0, 4, 0, 0, 4294967295⟩,
  ⟨0xA02002, 1, .u32, .wo, .observer, .operator, 0, 4, 0, 0, 4294967295⟩,
  ⟨0xA02003, 1, .u16, .rw, .observer, .operator, 0, 2, 2, 0, 65535⟩,
  ⟨0xA02004, 1, .blob, .ro, .observer, .observer, 0, 32, 0, 0, 0⟩,
  ⟨0xA10001, 1, .u32, .rw, .observer, .custodian, 0, 4, 0, 0, 4294967295⟩,
  ⟨0xA10002, 1, .u8, .ro, .observer, .observer, 0, 1, 0, 0, 255⟩,
  ⟨0xA10003, 1, .u32, .rw, .observer, .operator, 5000000, 4, 0, 0, 4294967295⟩,
  ⟨0xA11001, 64, .u8, .rw, .observer, .operator, 0, 1, 0, 0, 2⟩,
  ⟨0xA12001, 64, .u8, .rw, .observer, .operator, 255, 1, 0, 0, 255⟩,
  ⟨0xA20001, 1, .u64, .ro, .observer, .observer, 0, 8, 0, 0, 18446744073709551615⟩,
  ⟨0xA20002, 1, .u64, .ro, .observer, .observer, 0, 8, 0, 0, 18446744073709551615⟩,
  ⟨0xA20003, 1, .u64, .ro, .observer, .observer, 0, 8, 0, 0, 18446744073709551615⟩,
  ⟨0xA20004, 1, .u64, .ro, .observer, .observer, 0, 8, 0, 0, 18446744073709551615⟩,
  ⟨0xA20005, 1, .u64, .ro, .observer, .observer, 0, 8, 0, 0, 18446744073709551615⟩,
  ⟨0xA20006, 1, .u64, .ro, .observer, .observer, 0, 8, 0, 0, 18446744073709551615⟩,
  ⟨0xA20007, 1, .u64, .ro, .observer, .observer, 0, 8, 0, 0, 18446744073709551615⟩,
  ⟨0xA20008, 1, .u64, .ro, .observer, .observer, 0, 8, 0, 0, 18446744073709551615⟩,
  ⟨0xA20009, 1, .u64, .ro, .observer, .observer, 0, 8, 0, 0, 18446744073709551615⟩,
  ⟨0xA2000A, 1, .u64, .ro, .observer, .observer, 0, 8, 0, 0, 18446744073709551615⟩]

/-- Every entry but the subindices 0x00, in ascending order. -/
def odTable : List EntryRow :=
  odRows1a ++ odRows1b ++ odRows2a ++ odRows3a ++ odRows4a ++ odRows5a ++ odRows6a ++ odRows7a ++ odRows8a ++ odRows9a ++ odRowsAa

/-- The run that holds an entry. -/
def odRow (key : Nat) : Option EntryRow :=
  odTable.find? fun r => r.key ≤ key && key < r.key + r.count

/-- Highest subindex in use at an index, 0 where the index does not exist (R333). -/
def odHighest (index : Nat) : Nat :=
  odTable.foldl (fun m r => if r.key / 256 = index then max m (r.key % 256 + r.count - 1) else m) 0

/-- The entry at a key: subindex 0x00 of an existing index is a constant U8 (R333). -/
def odFind (key : Nat) : Option EntryRow :=
  if key % 256 = 0 then
    match odHighest (key / 256) with
    | 0 => none
    | h => some ⟨key, 1, .u8, .const, .observer, .observer, h, 1, 0, 0, 255⟩
  else odRow key

/-- Default of an entry (R335). -/
def odDefault (key : Nat) : Nat := (odFind key).elim 0 (·.dflt)

/-- The first existing entry above a key, in ascending order (NEXT, R342). -/
def odNext (key : Nat) : Option Nat :=
  let inRow := (odTable.filterMap fun r =>
    if key < r.key then some r.key else if key + 1 < r.key + r.count then some (key + 1) else none)
  let heads := (odTable.filterMap fun r =>
    if key < r.key / 256 * 256 then some (r.key / 256 * 256) else none)
  (inRow ++ heads).foldl (fun (m : Option Nat) k => match m with
    | none => some k
    | some b => some (min b k)) none

/-- Code of a type (R334). -/
def EType.code : EType → Nat
  | .bool => 1 | .u8 => 2 | .u16 => 3 | .u32 => 4 | .u64 => 5 | .i32 => 6 | .f32 => 7 | .time => 8 | .str => 9 | .blob => 10

/-- Size of a fixed-size type in bytes (R334). -/
def EType.size : EType → Option Nat
  | .bool => some 1 | .u8 => some 1 | .u16 => some 2 | .u32 => some 4 | .u64 => some 8 | .i32 => some 4 | .f32 => some 4
  | .time => some 8 | .str => none | .blob => none

/-- Code of an access (R343). -/
def Access.code : Access → Nat
  | .const => 0 | .ro => 1 | .rw => 2 | .wo => 3

/-- Code of a role (R339). -/
def Role.code : Role → Nat
  | .observer => 0 | .operator => 1 | .custodian => 2

/-- Role of a code (R339). -/
def Role.ofCode : Nat → Option Role
  | 0 => some .observer
  | 1 => some .operator
  | 2 => some .custodian
  | _ => none

/-- Entry descriptor of R343. -/
def EntryRow.descriptor (r : EntryRow) : Nat :=
  r.ty.code * 2 ^ 56 + r.acc.code * 2 ^ 48
    + (if r.acc = .wo then 0xFF else r.rd.code) * 2 ^ 40
    + (if r.acc = .const ∨ r.acc = .ro then 0xFF else r.wr.code) * 2 ^ 32
    + r.maxLen * 2 ^ 16 + r.effect * 2 ^ 8

end Sys2Proof.Machine
end

