-- ==== Sys2Proof/Machine/Ops.lean ====
section
/-!
DEFINITION. Named operations over the state: time, output, addressed buffers, dictionary values, functions and requests.
-/
namespace Sys2Proof.Machine

/-! ### Bits and bytes (R4) -/

/-- Bits `hi` down to `lo` of a field map, as a number. -/
def bits (w hi lo : Nat) : Nat := w / 2 ^ lo % 2 ^ (hi + 1 - lo)

/-- The `n` bytes of `v`, least significant first. -/
def leBytes : Nat → Nat → List Byte
  | 0, _ => []
  | n + 1, v => BitVec.ofNat 8 v :: leBytes n (v / 256)

/-- The number whose bytes, least significant first, are given. -/
def ofLe : List Byte → Nat
  | [] => 0
  | b :: bs => b.toNat + 256 * ofLe bs

/-- Bytes up to the next multiple of `q`. -/
def roundUp (n q : Nat) : Nat := (n + q - 1) / q * q

/-- Quotient rounded up. -/
def ceilDiv (n d : Nat) : Nat := if d = 0 then 0 else (n + d - 1) / d

/-- Cuts a list into pieces of a length. -/
def chunks {α : Type} (k : Nat) : Nat → List α → List (List α)
  | 0, _ => []
  | _, [] => []
  | fuel + 1, l => l.take k :: chunks k fuel (l.drop k)

/-! ### Association lists -/

/-- The value at a key, or a default. -/
def lookupD (l : List (Nat × Nat)) (k d : Nat) : Nat :=
  match l with
  | [] => d
  | (a, v) :: r => if a = k then v else lookupD r k d

/-- Sets the value at a key. -/
def setKey {α : Type} (l : List (Nat × α)) (k : Nat) (v : α) : List (Nat × α) :=
  match l with
  | [] => [(k, v)]
  | (a, w) :: r => if a = k then (k, v) :: r else (a, w) :: setKey r k v

/-- Removes a key. -/
def dropKey {α : Type} (l : List (Nat × α)) (k : Nat) : List (Nat × α) := l.filter fun p => p.1 ≠ k

/-- The value at a key. -/
def getKey {α : Type} (l : List (Nat × α)) (k : Nat) : Option α :=
  match l with
  | [] => none
  | (a, v) :: r => if a = k then some v else getKey r k

/-- Changes the list's element at an index. -/
def modAt {α : Type} (l : List α) (i : Nat) (f : α → α) : List α :=
  match l, i with
  | [], _ => []
  | a :: r, 0 => f a :: r
  | a :: r, n + 1 => a :: modAt r n f

/-! ### Addressed buffers -/

/-- The byte at an address: what an unlisted address reads as is 0 (R350; log 7). -/
def Memory.read (m : Memory) (a : Nat) : Byte :=
  match m with
  | [] => 0
  | (b, v) :: r => if b = a then v else Memory.read r a

/-- Writes one byte, keeping addresses rising and 0 unlisted. -/
def Memory.write (m : Memory) (a : Nat) (v : Byte) : Memory :=
  match m with
  | [] => if v = 0 then [] else [(a, v)]
  | (b, w) :: r =>
    if a < b then (if v = 0 then (b, w) :: r else (a, v) :: (b, w) :: r)
    else if a = b then (if v = 0 then r else (a, v) :: r)
    else (b, w) :: Memory.write r a v

/-- Writes bytes from an address on. -/
def Memory.writeAll (m : Memory) (a : Nat) (vs : List Byte) : Memory :=
  match vs with
  | [] => m
  | v :: r => Memory.writeAll (Memory.write m a v) (a + 1) r

/-- `n` bytes from an address on. -/
def Memory.readAll (m : Memory) (a n : Nat) : List Byte := (List.range n).map fun i => m.read (a + i)

/-- The canonical form above a bound: addresses rising from it, no byte 0. -/
def Memory.wfFrom (lo : Nat) (m : Memory) : Bool :=
  match m with
  | [] => true
  | (a, v) :: r => decide (lo ≤ a) && decide (v ≠ 0) && Memory.wfFrom (a + 1) r

/-- The canonical form. -/
def Memory.wf (m : Memory) : Bool := m.wfFrom 0

/-! ### Time, output, free values -/

/-- The command takes effect at `t`; TIME64 does not go back (R285). -/
def State.tick (s : State) (t : Nat) : State := { s with now := max s.now t }

/-! ### What leaves the module (R228, R279, R280, R287) -/

/-- The bytes of a record: header, entries, notices, token words, byte area, padding (R228). -/
def recBytes (b : RecordBody) : List Byte :=
  let raw := leBytes 64 b.header.toNat ++ (b.streams.flatMap fun p => leBytes 16 p.entry.toNat)
    ++ (b.notices.flatMap fun n => leBytes 16 n.toNat) ++ (b.streams.flatMap fun p => p.words.flatMap fun w => leBytes 8 w.toNat)
    ++ b.streams.flatMap (·.bytes)
  raw ++ List.replicate (roundUp raw.length 64 - raw.length) 0

/-- A transport header from its fields; a whole message in one fragment (R279). -/
def mkHdr (dest src dsess ssess tseq msg cls len : Nat) : BitVec 256 :=
  BitVec.ofNat 256 (dest % 2 ^ 32 * 2 ^ 224 + src % 2 ^ 32 * 2 ^ 192 + dsess % 2 ^ 16 * 2 ^ 176 + ssess % 2 ^ 16 * 2 ^ 160
    + tseq % 2 ^ 32 * 2 ^ 128 + msg % 256 * 2 ^ 120 + cls % 8 * 2 ^ 117 + 3 * 2 ^ 115 + len % 2 ^ 32 * 2 ^ 64)

/-- CLASS of a message type (R287). -/
def msgClass (msg : Nat) : Nat :=
  if msg / 16 = 4 then 1 else if msg / 16 = 1 then 2 else if msg / 16 = 2 then 3 else if msg / 16 = 3 then 4 else 5

/-- The fragments of a message of `len` bytes: 4,064 bytes each with the header, FIRST, LAST and FRAG_OFF set (R279). -/
def fragments (cls dest : Nat) (h : BitVec 256) (len : Nat) (port : Option Nat) : List TxFrame :=
  let n := max 1 (ceilDiv len 4064)
  (List.range n).map fun i =>
    { cls := cls, dest := dest, len := min 4064 (len - 4064 * i), port := port
      hdr := BitVec.ofNat 256 (h.toNat - 3 * 2 ^ 115 + (decide (i = 0)).toNat * 2 ^ 116 + (decide (i + 1 = n)).toNat * 2 ^ 115
        + 4064 * i * 2 ^ 32) }

/-- The session that a message to a module goes on: DSESS and SSESS; those of a session message are in its fields; a heartbeat and a
TAKEOVER need none (R279, R281, R287; log 196). -/
def State.sessNos (s : State) (dest msg : Nat) (key : List Nat) : Nat × Nat :=
  if msg < 6 then (key.getD 0 0, key.getD 1 0)
  else if msg = 0x46 || msg = 0x47 then (0, 0)
  else (s.fab.sessions.find? fun x => x.ident = dest && x.state = .opened).elim (0, 0) fun x => (x.rsess, x.lsess)

/-- A message waits for a port, with the next TSEQ of its session and class (R280). -/
def State.queueMessage (s : State) (cls dest msg : Nat) (key : List Nat) (len : Nat) : TxState :=
  let n := s.sessNos dest msg key
  let qs := (getKey s.tx.seqs n.2).getD [0, 0, 0, 0, 0, 0]
  let h := mkHdr dest s.fab.ident n.1 n.2 (qs.getD cls 0) msg cls len
  { s.tx with
    seqs := if n.2 = 0 then s.tx.seqs else setKey s.tx.seqs n.2 (modAt qs cls fun q => (q + 1) % 2 ^ 32)
    waiting := s.tx.waiting ++ fragments cls dest h len (if msg = 0x46 then key.head? else none) }

/-- What an output gives transport to send: the messages, records, dictionary answers and SPDM answers for Etnan, in a class (R287). -/
def State.transport (s : State) (cls : Nat → Nat) : Output → TxState
  | .fabric dest msg key payload => s.queueMessage (cls msg) dest msg key payload.length
  | .record dest body => s.queueMessage (cls 0x23) dest 0x23 [] (recBytes body).length
  | .pdu .etnan channel _ bytes => match s.fab.sessions.find? fun x => x.idx = channel with
    | some x => s.queueMessage (cls 0x06) x.ident 0x06 [] (16 + bytes.length)
    | none => s.tx
  | .spdm true channel _ value => match s.fab.sessions.find? fun x => x.idx = channel with
    | some x => s.queueMessage (cls 0x07) x.ident 0x07 [] (4 + value.length)
    | none => s.tx
  | _ => s.tx

/-- Appends to what leaves the module; a message in a class of its own choice. -/
def State.emitAs (s : State) (cls : Nat) (o : Output) : State := { s with out := s.out ++ [o], tx := s.transport (fun _ => cls) o }

/-- Appends to what leaves the module. -/
def State.emit (s : State) (o : Output) : State := { s with out := s.out ++ [o], tx := s.transport msgClass o }

/-- A draw of GD: 384 bits that nothing constrains (log 4). -/
def State.drawn (s : State) : BitVec 384 := Config.freeDraw s.freeCtr

/-- The draw counter after a draw. -/
def State.draw (s : State) : State := { s with freeCtr := s.freeCtr + 1 }

/-- The base step in progress at a time: k * 50 µs, with the time base or without it (R286, log 11). -/
def stepOf (t : Nat) : Nat := t / 50000

/-! ### Dictionary values -/

/-- The value an entry holds. -/
def State.entry (s : State) (key : Nat) : Nat := lookupD s.dict.vals key (odDefault key)

/-- The value in force of a next-start entry: what it was at the last start (R336). -/
def State.inForce (s : State) (key : Nat) : Nat := (getKey s.dict.held key).getD (s.entry key)

/-- Stores an entry's value. -/
def State.setEntry (s : State) (key v : Nat) : State :=
  { s with dict := { s.dict with vals := setKey s.dict.vals key v } }

/-- Counts in an entry. -/
def State.count (s : State) (key n : Nat) : State := if n = 0 then s else s.setEntry key (s.entry key + n)

/-- Entry of function `f` in a per-function index (subindex f + 1). -/
def perFn (index f : Nat) : Nat := index * 256 + f + 1

/-! ### Functions and requests -/

/-- Registers of function `f`. -/
def State.fn (s : State) (f : Nat) : Fn := s.host.fns.getD f {}

/-- Changes the registers of function `f`. -/
def State.modFn (s : State) (f : Nat) (g : Fn → Fn) : State :=
  { s with host := { s.host with fns := modAt s.host.fns f g } }

/-- Function `f` exists on PCIe (R311). -/
def State.fnExists (s : State) (f : Nat) : Bool := f = 0 || (s.host.vfEnable && f ≤ s.host.numVfs && f < 64)

/-- The outstanding request of a function with a tag. -/
def State.req (s : State) (f tag : Nat) : Option Request :=
  s.reqs.find? fun r => r.fn = f && r.tag = tag

/-- Changes that request. -/
def State.modReq (s : State) (f tag : Nat) (g : Request → Request) : State :=
  { s with reqs := s.reqs.map fun r => if r.fn = f && r.tag = tag then g r else r }

/-- Removes that request. -/
def State.dropReq (s : State) (f tag : Nat) : State :=
  { s with reqs := s.reqs.filter fun r => !(r.fn = f && r.tag = tag) }

/-- Changes the progress of that request. -/
def State.modWork (s : State) (f tag : Nat) (g : Work → Work) : State :=
  s.modReq f tag fun r => { r with work := g r.work }

/-! ### Sequence table slots (R205) -/

/-- A slot's entry. -/
def State.slot (s : State) (n : Nat) : SeqEntry := (getKey s.seq.entries n).getD {}

/-- Frees a slot: only GEN stays (R205). -/
def State.freeSlot (s : State) (n : Nat) : State :=
  { s with seq := { s.seq with
    entries := setKey s.seq.entries n { gen := (s.slot n).gen }
    freed := s.seq.freed.filter (· ≠ n) ++ [n]
    streams := s.seq.streams.filter fun st => st.slot ≠ n } }

/-- Changes a slot's entry. -/
def State.modSlot (s : State) (n : Nat) (g : SeqEntry → SeqEntry) : State :=
  { s with seq := { s.seq with entries := setKey s.seq.entries n (g (s.slot n)) } }

/-! ### Codes -/

/-- Status codes of R331. -/
def statusCode : Status → Nat
  | .done => 0x00 | .partDone => 0x01 | .shortList => 0x02 | .filterShort => 0x03 | .stoppedString => 0x04
  | .stoppedLength => 0x05 | .stoppedToken => 0x06 | .refusedCapacity => 0x10 | .lengthExceeds => 0x11
  | .fieldReserved => 0x12 | .stateConflict => 0x13 | .unknownObject => 0x14 | .accessDenied => 0x15
  | .versionStale => 0x16 | .withdrawn => 0x20 | .late => 0x22 | .recovered => 0x30 | .failedOver => 0x31
  | .internalFault => 0x3F

/-- Codes of the operating states (R353); OFF has none, and the entry then holds its default (log 1). -/
def OpState.code : OpState → Nat
  | .off => 2 | .dark => 1 | .starting => 2 | .ready => 3 | .serving => 4 | .draining => 5 | .retained => 6

/-- Codes of the lifecycle states (R434). -/
def Lifecycle.code : Lifecycle → Nat
  | .blank => 0 | .opened => 1 | .sealed => 2 | .retired => 3

/-- Codes of the debug levels (R434). -/
def DebugLevel.code : DebugLevel → Nat
  | .d0 => 0 | .d1 => 1 | .d2 => 2 | .d3 => 3

/-- Codes of the time states (R308). -/
def TimeState.code : TimeState → Nat
  | .acquiring => 0 | .locked => 1 | .holdover => 2 | .freeRun => 3

/-- Codes of the pair states (R308). -/
def PairState.code : PairState → Nat
  | .unpaired => 0 | .forming => 1 | .paired => 2 | .split => 3 | .survivor => 4

/-- Codes of the power states (R434). -/
def PowerState.code : PowerState → Nat
  | .p0 => 0 | .p1 => 1 | .p2 => 2 | .p3 => 3 | .p4 => 4

/-- Codes of the transports (R339). -/
def transportCode : Transport → Nat
  | .can => 0 | .pcie => 1 | .etnan => 2

end Sys2Proof.Machine
end

