-- ==== Sys2Proof/Machine/Media.lean ====
section
/-!
DEFINITION. The flash media: pages and their headers, superblocks, the map and its log superblocks, the choice of superblocks by wear,
and what a rebuild takes from the pages (R358..R360, R363..R367, R370..R373).
-/
namespace Sys2Proof.Machine

/-! ### Geometry (R358, R359) -/

/-- The lowest `n` numbers from `k` on that a list does not hold. -/
def takeFree (used : List Nat) : Nat → Nat → Nat → List Nat
  | 0, _, _ => []
  | _, 0, _ => []
  | fuel + 1, n + 1, k => if used.contains k then takeFree used fuel (n + 1) (k + 1) else k :: takeFree used fuel n (k + 1)

/-- Superblocks of a target, and of the module (R358). -/
def targetSbs : Nat := 2543
def moduleSbs : Nat := 325504

/-- Pages of a superblock, and those before its footer (R358, R364). -/
def sbPages : Nat := 6144
def footerPages : Nat := 6142

/-- Target of a superblock: channel × 4 + target (R358). -/
def sbTarget (sb : Nat) : Nat := sb / targetSbs

/-- Targets 2 and 3 of channels 30 and 31 hold the metadata area (R359). -/
def metaTarget (t : Nat) : Bool := 30 ≤ t / 4 && 2 ≤ t % 4

/-- Targets of the metadata area, and a channel's targets of the data area (R359). -/
def metaTargets : List Nat := [122, 123, 126, 127]
def dataTargets (channel : Nat) : List Nat := ((List.range 4).map (channel * 4 + ·)).filter fun t => !metaTarget t

/-! ### Pages (R363, R364) -/

/-- Pages of a run; the read units that its last page lacks are padding. -/
def PageRun.pages (r : PageRun) : Nat := ceilDiv r.units 4

/-- The VALID bits of page `i` of a run. -/
def PageRun.valid (r : PageRun) (i : Nat) : Nat := 2 ^ min 4 (r.units - 4 * i) - 1

/-- The header of page `i` of a run (R363). -/
def PageRun.header (r : PageRun) (i : Nat) : BitVec 128 :=
  BitVec.ofNat 128 ((r.seq + i) % 2 ^ 64 * 2 ^ 64 + (r.lba + 4 * i) % 2 ^ 40 * 2 ^ 24 + r.key % 256 * 2 ^ 16 + r.valid i * 2 ^ 12
    + r.cls % 4 * 2 ^ 10 + r.log.toNat * 2 ^ 9 + r.footer.toNat * 2 ^ 8)

/-- The headers of a superblock's pages, in program order. -/
def Superblock.headers (m : Superblock) : List (BitVec 128) := m.runs.flatMap fun r => (List.range r.pages).map r.header

/-- Pages programmed in a superblock. -/
def Superblock.filled (m : Superblock) : Nat := (m.runs.map PageRun.pages).sum

/-- What the footer holds: the headers of the pages before it, in program order (R364). -/
def Superblock.footer (m : Superblock) : List (BitVec 128) := m.headers.take footerPages

/-- The newest copy of an LBA in a superblock: its SEQ. A page that lies on a fenced target does not decode (R369, R370). -/
def Superblock.copy (m : Superblock) (lba : Nat) : Option Nat :=
  m.runs.foldl (fun best r =>
    if r.lba ≤ lba && lba < r.lba + r.units then some (max (best.getD 0) (r.seq + (lba - r.lba) / 4)) else best) none

/-- The newest copy of an LBA on the media that decodes: superblock and SEQ (R370). -/
def FlashState.newest (f : FlashState) (lba : Nat) : Option (Nat × Nat) :=
  f.media.foldl (fun best m =>
    match (if f.fencedTargets.contains (sbTarget m.sb) then none else m.copy lba), best with
    | some q, some b => if b.2 < q then some (m.sb, q) else best
    | some q, none => some (m.sb, q)
    | none, _ => best) none

/-- The superblock that a rebuild maps an LBA to: that of the newest copy, if its SEQ exceeds every trim record of its logical block
(R370). -/
def FlashState.mapped (f : FlashState) (lba : Nat) : Option Nat :=
  (f.newest lba).bind fun b =>
    if f.trims.any fun x => x.2.contains (lba / 24576) && b.2 ≤ x.1 then none else some b.1

/-! ### The choice of superblocks (R359, R367) -/

/-- Superblocks that hold data, wait for an erase or are retired. -/
def FlashState.used (f : FlashState) : List Nat :=
  f.media.map (·.sb) ++ f.map.map (·.sb) ++ f.erasing ++ f.retired

def State.sbUsed (s : State) : List Nat := s.flash.used

/-- The free superblock of some targets in service with the fewest cycles, the lowest of these (R367). -/
def FlashState.freeIn (f : FlashState) (targets : List Nat) : Option Nat :=
  let used := f.used
  let live := targets.filter fun t => !f.fencedTargets.contains t
  let known := used ++ f.cycles.map (·.1)
  let new := live.findSome? fun t =>
    (takeFree known (known.length + 1) 1 (t * targetSbs)).head?.filter fun b => b < (t + 1) * targetSbs
  let worn := f.cycles.filter fun p => live.contains (sbTarget p.1) && !used.contains p.1
  new.orElse fun _ => (worn.foldl (fun best p => match best with
    | some b => if p.2 < b.2 || (p.2 = b.2 && p.1 < b.1) then some p else best
    | none => some p) none).map (·.1)

/-- A free superblock of the data area and the channel after its own: the channels are taken in turn (R359). -/
def FlashState.freeCold (f : FlashState) : Option (Nat × Nat) :=
  (List.range 32).findSome? fun i =>
    let c := (f.nextChannel + i) % 32
    (f.freeIn (dataTargets c)).map fun b => (b, (c + 1) % 32)

/-! ### Programs and moves (R364..R367) -/

/-- Pages programmed at the end of a superblock, with the next SEQs; it closes when only the footer's pages are left. A COLD
superblock opened on a channel closes the one open there (R363, R364; log 109). -/
def FlashState.program (f : FlashState) (sb : Nat) (r : PageRun) : FlashState :=
  let r := { r with seq := f.seq + 1 }
  let add (m : Superblock) : Superblock :=
    let m := { m with runs := m.runs ++ [r] }
    { m with closed := m.closed || footerPages ≤ m.filled }
  let shut (m : Superblock) : Superblock :=
    if sbTarget m.sb / 4 = sbTarget sb / 4 && !metaTarget (sbTarget m.sb) then { m with closed := true } else m
  let media := if f.media.any (·.sb = sb) then f.media.map fun m => if m.sb = sb then add m else m
    else (if metaTarget (sbTarget sb) then f.media else f.media.map shut) ++ [add { sb := sb, runs := [] }]
  { f with media := media, seq := f.seq + r.pages, clean := false }

/-- Superblocks queued for erase; `readers` have reads under way there, which the erase waits for (R366). -/
def FlashState.toErase (f : FlashState) (readers : List (Nat × Nat)) (sbs : List Nat) : FlashState :=
  let sbs := (sbs.filter fun b => !f.erasing.contains b && !f.retired.contains b && !f.fencedTargets.contains (sbTarget b)).eraseDups
  { f with erasing := f.erasing ++ sbs
           oldReads := f.oldReads ++ sbs.flatMap fun b => readers.map fun p => (b, p.1, p.2) }

/-- The newest copy of every unit of a logical block is programmed into a fresh superblock, then the map entry switches, and the old
superblocks, a log superblock among them, are queued for erase (R365, R366). -/
def FlashState.moveTo (f : FlashState) (readers : List (Nat × Nat)) (block fresh : Nat) : FlashState :=
  match f.map.find? fun m => m.block = block with
  | none => f
  | some e =>
    let old := (f.map.filter fun m => m.block = block).map (·.sb) ++ (f.logs.filter fun l => l.1 = block).map (·.2)
    let f1 := f.program fresh { lba := 24576 * block, units := 4 * e.fill - e.pad, key := e.key, cls := e.hot.toNat }
    ({ f1 with map := f1.map.map fun m => if m.block = block then { m with sb := fresh } else m
               logs := f1.logs.filter fun l => l.1 ≠ block } : FlashState).toErase readers old

/-- Logical blocks with a data or log superblock of some kind. -/
def FlashState.blocksIn (f : FlashState) (p : Nat → Bool) : List Nat :=
  (f.map.filter fun m => p m.sb || f.logs.any fun l => l.1 = m.block && p l.2).map (·.block)

/-- Moves a logical block to a free superblock of its area, if there is one. -/
def FlashState.move (f : FlashState) (readers : List (Nat × Nat)) (block : Nat) : FlashState :=
  let hot := f.map.any fun m => m.block = block && m.hot
  if hot then (f.freeIn metaTargets).elim f (f.moveTo readers block)
  else match f.freeCold with
    | none => f
    | some p => { f.moveTo readers block p.1 with nextChannel := p.2 }

/-- A page of an object below the fill count goes to its log superblock. With 256 of them, none free or a full one, the oldest is
merged first, then a full one of the block's own; the count of merges follows (R365). -/
def FlashState.logWrite (f : FlashState) (block : Nat) (r : PageRun) : FlashState × Nat :=
  let own (f : FlashState) : Option Nat := getKey f.logs block
  let full (f : FlashState) : Bool := (own f).any fun b => f.media.any fun m => m.sb = b && footerPages ≤ m.filled
  let short (f : FlashState) : Bool := (own f).isNone && (256 ≤ f.logs.length || (f.freeIn metaTargets).isNone)
  let (f1, n1) := if full f || short f then
      match f.logs.head? with
      | some l => (f.move [] l.1, 1)
      | none => (f, 0)
    else (f, 0)
  let (f2, n2) := if full f1 then (f1.move [] block, n1 + 1) else (f1, n1)
  match own f2 with
  | some b => (f2.program b { r with log := true }, n2)
  | none => match f2.freeIn metaTargets with
    | some b => (({ f2 with logs := f2.logs ++ [(block, b)] } : FlashState).program b { r with log := true }, n2)
    | none => (f2, n2)

/-- A block of a COLD object is written into a superblock of its own, under a key slot (R359, R365, R373). -/
def FlashState.storeBlock (f : FlashState) (key block units : Nat) : FlashState :=
  let p := f.freeCold.getD (0, f.nextChannel)
  let f1 := f.program p.1 { lba := 24576 * block, units := units, key := key, cls := 0 }
  let fill := ceilDiv units 4
  { f1 with map := f1.map ++ [{ block := block, sb := p.1, fill := fill, pad := 4 * fill - units, key := key }], nextChannel := p.2 }

/-- A page of the map, its log or the directory is programmed with the next SEQ; CLEAN is cleared (R363, R372). -/
def FlashState.mapPage (f : FlashState) : FlashState := { f with seq := f.seq + 1, clean := false }

/-- The same for the module. -/
def State.logged (s : State) : State := { s with flash := s.flash.mapPage }

/-- A map checkpoint marked CLEAN (R372). -/
def FlashState.checkpoint (f : FlashState) : FlashState := { f.mapPage with clean := true }

/-! ### HOT objects (R359, R360, R373) -/

/-- The module's own HOT objects, by number: 0 the fault records (R395), 1 the pool journal, 2 the pool checkpoint (R268). -/
def hotFaults : Nat := 0
def hotJournal : Nat := 1
def hotCheckpoint : Nat := 2

/-- The logical block of a HOT object, taken at its first write: the lowest free one. -/
def FlashState.hotBlock (f : FlashState) (obj : Nat) : Option (FlashState × Nat) :=
  match getKey f.hot obj with
  | some b => some (f, b)
  | none =>
    let used := f.map.map (·.block)
    match (takeFree used (used.length + 1) 1 0).head?, f.freeIn metaTargets with
    | some b, some sb => some ({ f with hot := f.hot ++ [(obj, b)]
                                        map := f.map ++ [{ block := b, sb := sb, key := 0, hot := true }] }, b)
    | _, _ => none

/-- Writes one page of a HOT object under key slot 0: appended to its data superblock, or below the fill count to its log superblock;
the count of merges follows (R365, R373). -/
def FlashState.hotWrite (f : FlashState) (obj page units : Nat) : FlashState × Nat :=
  match f.hotBlock obj with
  | none => ({ f with clean := false }, 0)
  | some (f1, b) =>
    let r : PageRun := { lba := 24576 * b + 4 * page, units := units, key := 0, cls := 1 }
    match f1.map.find? fun m => m.block = b with
    | none => (f1, 0)
    | some e =>
      if e.fill ≤ page then
        let f2 := f1.program e.sb r
        ({ f2 with map := f2.map.map fun m => if m.block = b then { m with fill := page + 1, pad := 4 - min 4 units } else m }, 0)
      else f1.logWrite b r

/-- Appends to a HOT object that is written around its logical block: the page after the last one (log 111). -/
def FlashState.hotAppend (f : FlashState) (obj : Nat) : FlashState × Nat :=
  let n := lookupD f.hotNext obj 0
  ({ f with hotNext := setKey f.hotNext obj ((n + 1) % footerPages) } : FlashState).hotWrite obj n 4

/-- Pages `0..n-1` of a HOT object. -/
def FlashState.hotObject (f : FlashState) (obj n : Nat) : FlashState × Nat :=
  (List.range n).foldl (fun p i => let q := p.1.hotWrite obj (i % footerPages) 4; (q.1, p.2 + q.2)) (f, 0)

/-- The module's media after some pages; merges are counted (R365). -/
def State.hotPages (s : State) (p : FlashState × Nat) : State := ({ s with flash := p.1 } : State).count 0x61000C p.2

/-! ### Freeing and erasing (R366, R367) -/

/-- Frees logical blocks under a trim record with the next SEQ; their superblocks are queued for erase after it (R367). -/
def FlashState.trim (f : FlashState) (readers : List (Nat × Nat)) (blocks : List Nat) : FlashState :=
  if blocks.isEmpty then f else
  let old := (f.map.filter fun m => blocks.contains m.block).map (·.sb) ++ (f.logs.filter fun l => blocks.contains l.1).map (·.2)
  ({ f with map := f.map.filter fun m => !blocks.contains m.block
            logs := f.logs.filter fun l => !blocks.contains l.1
            seq := f.seq + 1, trims := f.trims ++ [(f.seq + 1, blocks)], clean := false } : FlashState).toErase readers old

/-- The closed COLD block to move and the worn superblock to move it to, once the cycles of the data area differ by more than 500
(R367). -/
def FlashState.wearMove (f : FlashState) : Option (Nat × Nat) :=
  let area := f.cycles.filter fun p => !metaTarget (sbTarget p.1)
  let low := if area.length < 315332 then 0 else area.foldl (fun m p => min m p.2) (area.headD (0, 0)).2
  let high := area.foldl (fun m p => max m p.2) 0
  if high ≤ low + 500 then none else
  let worn := (area.filter fun p => !f.used.contains p.1 && !f.fencedTargets.contains (sbTarget p.1)).foldl
    (fun best p => match best with
      | some (b : Nat × Nat) => if b.2 < p.2 then some p else best
      | none => some p) none
  let cold := f.map.filter fun m => !m.hot && f.media.any fun x => x.sb = m.sb && x.closed
  let from_ := cold.foldl (fun best m => match best with
      | some (b : MapEntry) => if lookupD f.cycles m.sb 0 < lookupD f.cycles b.sb 0 then some m else best
      | none => some m) none
  match from_, worn with
  | some m, some w => if lookupD f.cycles m.sb 0 + 500 < w.2 then some (m.block, w.1) else none
  | _, _ => none

/-! ### Rebuild (R370, R371) -/

/-- A block's log superblock: the one that pages in log superblocks map to. -/
def FlashState.logOf (f : FlashState) (block : Nat) : List (Nat × Nat) :=
  let l := f.media.filter fun m => m.runs.any fun r => r.log && r.lba / 24576 = block && f.mapped r.lba = some m.sb
  (l.head?.map fun m => (block, m.sb)).toList

/-- A block's data superblock as the pages give it: the newest one with a page of it that is not a log page. -/
def FlashState.dataOf (f : FlashState) (block : Nat) : Option Nat :=
  let l := f.media.filter fun m => !f.fencedTargets.contains (sbTarget m.sb) && m.runs.any fun r => !r.log && r.lba / 24576 = block
  let top (m : Superblock) : Nat := (m.runs.map (·.seq)).foldl max 0
  (l.foldl (fun best m => match best with
    | some (b : Superblock) => if top b < top m then some m else best
    | none => some m) none).bind fun m =>
      if f.trims.any fun x => x.2.contains block && top m ≤ x.1 then none else some m.sb

/-- The map that a rebuild makes: the directory and the trim records from the metadata area, then every block at the superblocks that its
pages give; superblocks that nothing maps to wait for an erase (R370). -/
def FlashState.rebuild (f : FlashState) : FlashState :=
  let map := f.map.map fun m => { m with sb := (f.dataOf m.block).getD m.sb }
  let logs := f.map.flatMap fun m => f.logOf m.block
  let live := map.map (·.sb) ++ logs.map (·.2)
  let gone := (f.media.map (·.sb)).filter fun b => !live.contains b && !f.retired.contains b && !f.fencedTargets.contains (sbTarget b)
  { f with map := map, logs := logs, erasing := (f.erasing ++ gone).eraseDups, oldReads := [] }

/-- Blocks with an open superblock, and the valid units of those superblocks (R371). -/
def FlashState.openBlocks (f : FlashState) : List Nat :=
  (f.map.filter fun m => f.media.any fun x => !x.closed && (x.sb = m.sb || f.logs.contains (m.block, x.sb))).map (·.block)
def FlashState.openUnits (f : FlashState) : Nat :=
  ((f.media.filter fun x => !x.closed && !f.erasing.contains x.sb).map fun x =>
    ((x.runs.map fun r => ((List.range r.units).filter fun k => f.mapped (r.lba + k) = some x.sb).length).sum)).sum

/-- Every open superblock is closed without further programming, its valid units copied to a new superblock (R371). -/
def FlashState.closeOpen (f : FlashState) : FlashState :=
  let bs := f.openBlocks
  bs.foldl (fun f b => f.move [] b) { f with media := f.media.map fun m => { m with closed := true } }

end Sys2Proof.Machine
end

