-- ==== Sys2Proof/Machine/Wire.lean ====
section
/-!
DEFINITION. Byte layout of what leaves on Etnan (R4, R272, R287): the fields of each message in the order of R287, least significant
byte first. Widths and marks that R287 leaves open are those of log 192.
-/
namespace Sys2Proof.Machine

/-- Unsigned fields in order, each as (bytes, value), byte 0 first. -/
def fieldBytes (fs : List (Nat × Nat)) : List Byte := fs.flatMap fun f => leBytes f.1 f.2

/-- Fields of one width in order. -/
def wordBytesOf (n : Nat) (l : List Nat) : List Byte := l.flatMap (leBytes n)

/-- Exactly `n` bytes: the first ones of a list, zeros after its end. -/
def padTo (n : Nat) (l : List Byte) : List Byte := (l ++ List.replicate n (0 : Byte)).take n

/-- Codes of `w` bits packed little-endian (R66). -/
def packCodes (w : Nat) (cs : List Nat) : List Byte :=
  leBytes (cs.length * w / 8) (cs.foldr (fun c v => v * 2 ^ w + c % 2 ^ w) 0)

/-! ### Rows (R241) -/

/-- Element bytes of a format code (R88, R240). -/
def elemBytes (fmt : Nat) : Nat := match fmt with
  | 1 => 2 | 2 => 1 | 3 => 1 | _ => 4

/-- ROW_BYTES (R241). -/
def rowBytes (d : TableDesc) : Nat := roundUp (d.dim * elemBytes d.format + (if d.format = 3 then d.dim / 32 else 0)) 64

/-- A row as it is stored: elements, scales, zeros up to ROW_BYTES. -/
def rowWire (d : TableDesc) (v : RowVal) : List Byte :=
  padTo (rowBytes d) (packCodes (8 * elemBytes d.format) v.elems ++ wordBytesOf 1 v.scales)

/-! ### Class 5 -/

/-- SESSION_OPEN, SESSION_ACCEPT, SESSION_REFUSE and SESSION_CLOSE: membership epoch, role bits. -/
def sessionWire (epoch roles : Nat) : List Byte := fieldBytes [(4, epoch), (4, roles)]

/-- KEEPALIVE and HEARTBEAT: the time at which it is sent. -/
def timeWire (t : Time) : List Byte := leBytes 8 t

/-- PUBLISH_CONTROL: kind, VERSION, SWITCH_SWEEP or SWITCH_TIME, STATUS. -/
def publishWire (kind version switch status : Nat) : List Byte :=
  fieldBytes [(1, kind), (2, version), (8, switch), (1, status)]

/-! ### Class 2 -/

/-- The items of SLATE_BOOK and SLATE, 24 B each: `off` is where the filter terms of the first one begin in the message. -/
def slateItems : Nat → List SlateItem → List Byte
  | _, [] => []
  | off, i :: r =>
    fieldBytes [(8, i.tag), (8, i.admitT), (1, i.cls), (2, i.member), (1, 0), (4, off)] ++ slateItems (off + 16 * i.filters.length) r

/-- SLATE_BOOK and SLATE: SWEEP_NO, the items, then sketches of `width` bytes and filter terms. -/
def slateWire (width no : Nat) (is : List SlateItem) : List Byte :=
  leBytes 8 no ++ slateItems (8 + 24 * is.length + width * is.length) is ++ is.flatMap (fun i => leBytes width i.sketch)
    ++ is.flatMap fun i => i.filters.flatMap fun w => leBytes 16 w.toNat

/-- PARTNER_LIST: the header of R288 and entries of R126. -/
def listWire (header : Nat) (entries : List Nat) : List Byte := leBytes 64 header ++ wordBytesOf 16 entries

/-- CAND_REQ: REQ_TAG, VERSION, the stage, then the elements of q and the ordinals. -/
def candReqWire (tag version : Nat) (passages : Bool) (q ords : List Nat) : List Byte :=
  fieldBytes [(8, tag), (2, version), (1, passages.toNat), (5, 0)] ++ wordBytesOf 1 q ++ wordBytesOf 8 ords

/-- One answered candidate: its score and head token fields, the lowest INT32 for a lost one; or its passage record (R146), whose
bits 1 and 0 mark it forged and lost. -/
def candItemWire (version shard heads : Nat) (passages : Bool) (c : CandItem) : List Byte :=
  if passages then
    fieldBytes [(2, c.forged.toNat * 2 + c.lost.toNat), (2, version), (4, c.tokens.length), (8, shard * 2 ^ 48 + c.ord)]
      ++ wordBytesOf 4 (c.tokens.map (·.toNat))
  else
    leBytes 4 (if c.lost then 2 ^ 31 else (BitVec.ofInt 32 c.score).toNat) ++ padTo (4 * heads) (wordBytesOf 4 (c.heads.map (·.toNat)))

/-- CAND_ANS: REQ_TAG, VERSION, the stage, whether the candidates are refused, and the candidates of a shard. -/
def candAnsWire (tag version : Nat) (passages refused : Bool) (shard heads : Nat) (is : List CandItem) : List Byte :=
  fieldBytes [(8, tag), (2, version), (1, passages.toNat + 2 * refused.toNat), (5, 0)]
    ++ is.flatMap (candItemWire version shard heads passages)

/-! ### Class 3 -/

/-- The text options block of R186 and R187. -/
def optsWire (opts : BitVec 256) (stops : List (BitVec 320)) : List Byte :=
  leBytes 32 opts.toNat ++ padTo 320 (stops.flatMap fun w => leBytes 40 w.toNat)

/-- HANDOFF: the header of R289, promise record, generation parameters, text options block, token fields. -/
def handoffWire (tag returnId vocab origin promise : Nat) (gen : BitVec 512) (opts : BitVec 256) (stops : List (BitVec 320))
    (prompt : List Nat) : List Byte :=
  leBytes 64 (tag % 2 ^ 64 * 2 ^ 448 + returnId % 2 ^ 32 * 2 ^ 416 + vocab % 2 ^ 32 * 2 ^ 384 + prompt.length % 2 ^ 32 * 2 ^ 352
      + origin % 2 ^ 32 * 2 ^ 320)
    ++ leBytes 32 promise ++ leBytes 64 gen.toNat ++ optsWire opts stops ++ wordBytesOf 4 prompt

/-- HANDOFF_ANS: REQ_TAG, STATUS, RSVD, the target's promise record. -/
def handoffAnsWire (tag status promise : Nat) : List Byte := fieldBytes [(8, tag), (1, status), (23, 0), (32, promise)]

/-- HANDOFF_CANCEL: REQ_TAG. -/
def cancelWire (tag : Nat) : List Byte := leBytes 8 tag

/-! ### Class 4 -/

/-- ROW_REQ: TABLE_ID, VERSION, row, T, the requester's key. -/
def rowReqWire (table version row : Nat) (t : Time) (key : Nat) : List Byte :=
  fieldBytes [(4, table), (2, version), (2, 0), (8, row), (8, t), (16, key)]

/-- ROW_ANS: the key fields, 1 where a row follows, the row, then for a replicated row the expiry of its list and the list. -/
def rowAnsWire (table row key : Nat) (v : Option (TableDesc × RowVal)) (expiry : Time) (replicas : List Nat) : List Byte :=
  fieldBytes [(4, table), (1, v.isSome.toNat), (1, replicas.length), (2, 0), (8, row), (16, key)]
    ++ v.elim [] (fun x => rowWire x.1 x.2) ++ (if replicas.isEmpty then [] else leBytes 8 expiry ++ wordBytesOf 4 replicas)

/-- DELTA: TABLE_ID, VERSION, row, its window, the window it takes effect in and its source, and the FP32 deltas. -/
def deltaWire (table version row window late source : Nat) (ds : List F32) : List Byte :=
  fieldBytes [(4, table), (2, version), (2, 0), (8, row), (8, window), (8, late), (4, source)] ++ wordBytesOf 4 (ds.map (·.toNat))

/-- DELTA_ANS: the key of the delta, applied, discarded by a version switch. -/
def deltaAnsWire (key : Nat) (applied stale : Bool) : List Byte := fieldBytes [(32, key), (1, applied.toNat), (1, stale.toNat)]

/-- REPLICA: TABLE_ID, VERSION, what it is (0 a copy for reads, 1 a copy for a new home, 2 a removal), row, the removal time, the value
and the previous value with its time. -/
def replicaWire (d : TableDesc) (kind row : Nat) (remove : Time) (v : Option RowVal) (prev : Option (Time × RowVal)) : List Byte :=
  fieldBytes [(4, d.tableId), (2, d.version), (1, kind), (1, prev.isSome.toNat), (8, row), (8, remove)]
    ++ v.elim [] (rowWire d) ++ prev.elim [] fun p => leBytes 8 p.1 ++ rowWire d p.2

/-- MAP of a migration: epoch, CUT, the range entries of R243. -/
def mapWire (epoch : Nat) (cut : Time) (ranges : List (BitVec 256)) : List Byte :=
  fieldBytes [(4, epoch), (8, cut), (4, ranges.length)] ++ ranges.flatMap fun w => leBytes 32 w.toNat

/-! ### Class 1 -/

/-- Payload of TABLE_GATHER (R245, R246), of TABLE_UPDATE (R256) and of COPY (R322). -/
def gatherWire (g : GatherPayload) : List Byte :=
  leBytes 64 g.blk.toNat ++ wordBytesOf 4 (g.lens.map (·.toNat)) ++ wordBytesOf 8 (g.rows.map (·.toNat))
    ++ wordBytesOf 4 (g.weights.map (·.toNat))

def updateWire (u : UpdatePayload) : List Byte :=
  leBytes 16 u.blk.toNat ++ u.entries.flatMap fun e => leBytes 8 e.1.toNat ++ wordBytesOf 4 (e.2.map (·.toNat))

def copyWire (c : BitVec 256 × List Byte) : List Byte := leBytes 32 c.1.toNat ++ c.2

/-- PAIR_OFFER: the profile and the sweep store. -/
def offerWire (profile version : Nat) (origin : Time) (period : Nat) (held : Bool) : List Byte :=
  fieldBytes [(4, profile), (2, version), (1, held.toNat), (1, 0), (8, origin), (4, period)]

/-- PAIR_ACCEPT: one reserved byte, since a message has at least one (R279). -/
def acceptWire : List Byte := [0]

/-- PAIR_ADMIT: the descriptor, ADMIT_TIME, coverage mode, function, handle, image digest, then the payload (R296). -/
def pairAdmitWire (desc : BitVec 512) (admitT : Time) (mode fn handle digest : Nat) (payload : List Byte) : List Byte :=
  leBytes 64 desc.toNat ++ fieldBytes [(8, admitT), (1, mode), (4, fn), (4, handle), (48, digest)] ++ payload

/-- PAIR_ANS: REQ_TAG, STATUS. -/
def pairAnsWire (tag status : Nat) : List Byte := fieldBytes [(8, tag), (1, status)]

/-- One stream of MIRROR_STEP: slot, table entry (R206), counts, committed tokens, bytes held by the stop matcher and by the UTF-8
stage, tree nodes as (parent, token). -/
def mirrorStreamWire (slot entry : Nat) (toks : List Nat) (held utf : List Byte) (tree : List (Nat × Nat)) : List Byte :=
  fieldBytes [(2, slot), (64, entry), (4, toks.length), (2, held.length), (1, utf.length), (1, tree.length)]
    ++ wordBytesOf 4 toks ++ held ++ utf ++ tree.flatMap fun n => fieldBytes [(1, n.1), (4, n.2)]

/-- MIRROR_STEP: the step, its digest, the last step whose records are written, table versions that switched, the streams (R300,
R302). -/
def mirrorStepWire (step digest written : Nat) (switched : List (Nat × Nat)) (streams : List (List Byte)) : List Byte :=
  fieldBytes [(8, step), (8, digest), (8, written), (2, switched.length), (4, streams.length)]
    ++ switched.flatMap (fun v => fieldBytes [(4, v.1), (2, v.2)]) ++ streams.flatten

/-- MIRROR_ACK: the step. -/
def mirrorAckWire (step : Nat) : List Byte := leBytes 8 step

/-- TAKEOVER: the lost module, the pair identifier, the survivor. -/
def takeoverWire (lost pairId survivor : Nat) : List Byte := fieldBytes [(4, lost), (4, pairId), (4, survivor)]

end Sys2Proof.Machine
end

