-- ==== Sys2Proof/Machine/Flags.lean ====
section
/-!
DEFINITION. What a command raises outward: FUNC_EVENT bits and MSI-X (R313, R329), completion entries (R325), dictionary
events (R352), fault records (R394), ALERT_N (R440).
-/
namespace Sys2Proof.Machine

/-! ### MSI-X and FUNC_EVENT -/

/-- A vector fires: pending while masked, held back inside the hold-off, else sent (R329). -/
def State.fire (s : State) (f v : Nat) : State :=
  let fn := s.fn f
  let m := fn.msix.getD v {}
  let set (g : MsixVec → MsixVec) : State := s.modFn f fun fn => { fn with msix := modAt fn.msix v g }
  if m.masked then set fun m => { m with pend := true }
  else match m.lastFired with
    | some l =>
      if s.now < l + fn.holdoff * 1000 then set fun m => { m with armed := true }
      else (set fun m => { m with lastFired := some s.now }).emit (.msix f v)
    | none => (set fun m => { m with lastFired := some s.now }).emit (.msix f v)

/-- Sets bit `b` of FUNC_EVENT of one function and fires vector 2 (R313, R329). -/
def State.funcEvent (s : State) (f b : Nat) : State :=
  (s.modFn f fun fn => { fn with event := fn.event ||| BitVec.ofNat 32 (2 ^ b) }).fire f 2

/-- Sets bit 4 of FUNC_EVENT in every function of PCIe (R355). -/
def State.funcEventAll (s : State) (b : Nat) : State :=
  (List.range 64).foldl (fun s f => if s.fnExists f then s.funcEvent f b else s) s

/-! ### Completion entries -/

/-- Fields of a completion entry that the descriptor does not give (R325). -/
structure CplInfo where
  status : Status
  final : Bool
  cancelled : Bool := false
  applied : Bool := false
  bytes : Nat := 0
  countA : Nat := 0
  countB : Nat := 0
  deriving DecidableEq, Repr

/-- The promise record of R33 as a number. -/
def Promise.encode (p : Promise) : Nat :=
  p.firstDue % 2 ^ 64 * 2 ^ 192 + p.admitTime % 2 ^ 64 * 2 ^ 128 + p.periodNs % 2 ^ 32 * 2 ^ 96
    + p.epoch % 2 ^ 32 * 2 ^ 64 + p.handle % 2 ^ 32 * 2 ^ 32 + (if p.lc then 0 else 1) * 2 ^ 24 + p.kind * 2 ^ 16
    + p.steps % 256 * 2 ^ 8

/-- The completion entry of R325 as a number. -/
def cplEncode (tag op index ring : Nat) (phase : Bool) (promise : Nat) (i : CplInfo) : Nat :=
  tag % 2 ^ 64 * 2 ^ 448 + statusCode i.status * 2 ^ 440 + op % 256 * 2 ^ 432 + phase.toNat * 2 ^ 431
    + i.final.toNat * 2 ^ 430 + i.cancelled.toNat * 2 ^ 429 + i.applied.toNat * 2 ^ 428
    + i.bytes % 2 ^ 32 * 2 ^ 384 + i.countA % 2 ^ 32 * 2 ^ 352 + i.countB % 2 ^ 32 * 2 ^ 320
    + index % 2 ^ 16 * 2 ^ 304 + ring % 4 * 2 ^ 302 + promise

/-- Writes one entry to the completion ring: one 64-byte write, PHASE inverting on each wrap, vector 0 (R325, R329).
`spare` reserved entries are given back (R317). -/
def State.putCpl (s : State) (f value spare : Nat) : State :=
  let c := (s.fn f).cpl
  if c.enable then
    let n := 2 ^ c.size
    let tail' := (c.tail + 1) % n
    let s1 := s.emit (.hostWrite f (c.base + 64 * c.tail) 64 value)
    (s1.modFn f fun fn => { fn with cpl := { fn.cpl with
      tail := tail', phase := if tail' = 0 then !c.phase else c.phase,
      used := c.used + 1, reserved := c.reserved - 1 - spare } }).fire f 0
  else s

/-- RETURN_ID, PROMPT_TOKENS and the other fields of a HANDOFF header, which an accepted hand-off keeps in place of a
descriptor (R289). -/
def hoTag (w : BitVec 512) : Nat := bits w.toNat 511 448
def hoReturn (w : BitVec 512) : Nat := bits w.toNat 447 416
def hoVocab (w : BitVec 512) : Nat := bits w.toNat 415 384
def hoTokens (w : BitVec 512) : Nat := bits w.toNat 383 352
def hoOrigin (w : BitVec 512) : Nat := bits w.toNat 351 320

/-- HANDOFF_ANS of a hand-off, kept for 1 s (R291). -/
def State.handoffAnswer (s : State) (r : Request) (st : Status) : State :=
  let promise := if st = .done then BitVec.ofNat 256 r.promise.encode else 0
  let kept : KeptAnswer := ⟨hoOrigin r.desc, r.tag, s.now + 1000000000, st, promise⟩
  let s1 : State := { s with fab := { s.fab with kept := (s.fab.kept.filter fun k => s.now < k.until_) ++ [kept] } }
  match s.fab.sessions.find? fun x => x.idx + 1 = r.origin && x.state = .opened with
  | some x => s1.emit (.fabric x.ident 0x21 [r.tag] (handoffAnsWire r.tag (statusCode st) promise.toNat))
  | none => s1

/-- The function of this module that serves the host of a request: its own, or, for a request taken over from the pair peer,
the one whose 0xA120 entry names the peer's function (R295, R306). -/
def State.outFn (s : State) (f : Nat) : Nat :=
  if 2000 ≤ f && f < 2064 then ((List.range 64).find? fun g => s.entry (perFn 0xA120 g) = f - 2000).getD 65536 else f

/-- A completion of reflected work that the partner keeps back (R301, R306). -/
def State.keepDone (s : State) (r : Request) (i : CplInfo) : State :=
  if r.covered = 2 && i.final then
    let value := cplEncode r.tag r.op r.index r.ring false r.promise.encode i
    { s with pair := { s.pair with keptDone := s.pair.keptDone ++ [(stepOf s.now, r.fn, value)] } }
  else s

/-- Completion entry of a request (R325, R326): a host request's entry goes to its function's ring; the FINAL entry gives
back what the request did not use. A hand-off is answered in place of an ADMIT entry or of a refusal (R291); a partner keeps
the completion of reflected work back (R301). -/
def State.complete (s : State) (r : Request) (i : CplInfo) (admitted : Bool) : State :=
  if r.silent then s
  else if r.mirror then (if admitted then s.keepDone r i else s)
  else if r.origin ≠ 0 then (if i.final && admitted then s else s.handoffAnswer r i.status)
  else
  s.putCpl (s.outFn r.fn) (cplEncode r.tag r.op r.index r.ring (s.fn (s.outFn r.fn)).cpl.phase
    (if admitted then r.promise.encode else 0) i) (if i.final && !admitted then 1 else 0)

/-! ### Dictionary events -/

/-- The header of R341 as a number. -/
def pduHeader (op tid station status index sub : Nat) (last first : Bool) (offset total len : Nat) : Nat :=
  op % 256 * 2 ^ 120 + tid % 256 * 2 ^ 112 + station % 256 * 2 ^ 104 + status % 256 * 2 ^ 96 + index % 2 ^ 16 * 2 ^ 80
    + sub % 256 * 2 ^ 72 + last.toNat * 2 ^ 65 + first.toNat * 2 ^ 64 + offset % 2 ^ 16 * 2 ^ 48 + total % 2 ^ 16 * 2 ^ 32
    + len % 2 ^ 16 * 2 ^ 16

/-- Frame lengths that CAN FD allows (R348). -/
def canPad (n : Nat) : Nat :=
  if n ≤ 8 then 8 else if n ≤ 12 then 12 else if n ≤ 16 then 16 else if n ≤ 20 then 20 else if n ≤ 24 then 24
  else if n ≤ 32 then 32 else if n ≤ 48 then 48 else 64

/-- A PDU as the bytes of a CAN FD frame (R348). -/
def canBytes (header : Nat) (data : List Byte) : List Byte :=
  let b := leBytes 16 header ++ data
  b ++ List.replicate (canPad b.length - b.length) 0

/-- The CAN FD port sends and receives: enabled (0x1030:0x03) and not fenced (R387). -/
def State.canOn (s : State) : Bool := s.inForce 0x103003 ≠ 0 && !s.faults.canDown

/-- Logical blocks of the part (R360). -/
def partBlocks (part24 : Bool) : Nat := if part24 then 238419 else 119210

/-- Spare superblocks (0x6100:0x04). -/
def State.spares (s : State) : Nat := 325504 - s.flash.retired.length - partBlocks s.mod.part24

/-- Wear used (0x6100:0x06). -/
def State.wear (s : State) : Nat := s.flash.cycles.foldl (fun m p => max m p.2) 0 * 10000 / 3000

/-- Set bits of a fence map word. -/
def popcount17 (w : BitVec 17) : Nat := ((List.range 17).filter fun i => w.getLsbD i).length

/-- Region of a global block: 24 blocks to a region (R12). -/
def blockRegion (b : Nat) : Nat := b / 24

/-- Region, die or block fenced: out of scan order (R380). -/
def State.blockFenced (s : State) (b : Nat) : Bool :=
  s.faults.fencedBlocks.contains b || s.faults.fencedRegions.contains (b / 24) || s.faults.fencedDies.contains (b / 192)

/-- Fenced cells (0x7000:0x05): logical cells with no silicon, plus cells fenced and replaced, which together are the cells
fenced one by one; the cells of a fenced block, region or die do not count (R380, R382, R396; log 85). -/
def State.fencedCells (s : State) : Nat := s.faults.fencedCells.foldl (fun n p => n + popcount17 p.2) 0

/-- Present value of an evented entry (R352). -/
def State.evented (s : State) (key : Nat) : Nat :=
  if key = 0x102001 then s.mod.op.code
  else if key = 0xA00007 then s.ptp.state.code
  else if key = 0xA10002 then s.pair.state.code
  else if key = 0x610004 then s.spares
  else if key = 0x610006 then s.wear
  else if key = 0x610009 then s.flash.fencedTargets.length
  else if key = 0x700005 then s.fencedCells
  else if key = 0x800001 then s.sec.life.code
  else if key = 0x800002 then (DebugLevel.code s.sec.debug)
  else if key = 0x900001 then s.power.state.code
  else s.entry key

/-- An EVENT PDU of an entry: header and value bytes (R342; TID 0 and one whole segment, log 12). -/
def State.eventPdu (s : State) (key station : Nat) : Nat × List Byte :=
  let n := match odFind key with | some r => r.ty.size.getD 0 | none => 0
  (pduHeader 0x10 0 station 0 (key / 256) (key % 256) true true 0 n n, leBytes n (s.evented key))

/-- A frame of kind `k` (R347) for the CAN FD queue. -/
def State.canEvent (s : State) (key : Nat) : CanFrame :=
  let p := s.eventPdu key 0
  { kind := 1, entry := key, bytes := canBytes p.1 p.2 }

/-- Replaces the oldest queued event of an entry; none when it has none. -/
def replaceEvent (q : List CanFrame) (f : CanFrame) : Option (List CanFrame) :=
  match q with
  | [] => none
  | a :: r => if a.kind = 1 && a.entry = f.entry then some (r ++ [f])
    else (replaceEvent r f).map (a :: ·)

/-- Queues an event on CAN FD: 14 positions, then replacement of the entry's oldest, then a pending mark (R352). -/
def State.canRaise (s : State) (key : Nat) : State :=
  if s.canOn then
    let q := s.dict.canQueue
    if (q.filter fun f => f.kind = 1).length < 14 then
      { s with dict := { s.dict with canQueue := q ++ [s.canEvent key] } }
    else match replaceEvent q (s.canEvent key) with
      | some q' => ({ s with dict := { s.dict with canQueue := q' } } : State).count 0x103013 1
      | none =>
        if s.dict.canPending.contains key then s
        else ({ s with dict := { s.dict with canPending := s.dict.canPending ++ [key] } } : State).count 0x103013 1
  else s

/-- Queues the event of an entry that changed on CAN FD, and sends it to every Etnan session that holds OPERATOR or more
(R351, R352). -/
def State.raise (s : State) (key : Nat) : State :=
  let outs := s.dict.sessions.filterMap fun d =>
    if d.transport = .etnan && d.role ≠ .observer
        && s.fab.sessions.any (fun x => x.idx = d.channel && x.state = .opened) then
      let p := s.eventPdu key d.station
      some (Output.pdu .etnan d.channel (BitVec.ofNat 128 p.1) p.2)
    else none
  { s.canRaise key with out := s.out ++ outs }

/-- Counts in an evented counter. -/
def State.countRaise (s : State) (key n : Nat) : State := if n = 0 then s else (s.count key n).raise key

/-! ### Changes of the module's modes -/

/-- A change of operating state: FUNC_EVENT bit 4 in every function, the event, the time (R355). -/
def State.setOp (s : State) (o : OpState) : State :=
  if s.mod.op = o then s else
  (({ s with mod := { s.mod with op := o, stateSince := if s.mod.baseHeld then s.now else 0 } } : State).funcEventAll 4).raise 0x102001

/-- The core rail at the point that HP sets, in its range (R17). -/
def State.setRail (s : State) : State :=
  ({ s with power := { s.power with rail := 550 + Config.freeRail s.freeCtr % 301 } } : State).draw

/-- A change of the power state (R415). -/
def State.setPower (s : State) (p : PowerState) : State :=
  if s.power.state = p then s else ({ s with power := { s.power with state := p } } : State).raise 0x900001

/-- A change of the lifecycle (R419): every session's role ends (R338). -/
def State.setLife (s : State) (l : Lifecycle) : State :=
  if s.sec.life = l then s else
  ({ s with sec := { s.sec with life := l },
            dict := { s.dict with sessions := s.dict.sessions.map fun d => { d with role := .observer } } } : State).raise 0x800001

/-- A change of the debug level (R428). -/
def State.setDebug (s : State) (d : DebugLevel) : State :=
  if s.sec.debug = d then s else ({ s with sec := { s.sec with debug := d } } : State).raise 0x800002

/-- A change of the time state (R285); PPS_OUT is low while the time base is not held (R442). -/
def State.setTime (s : State) (p : TimeState) : State :=
  if s.ptp.state = p then s else
  let held := p = .locked || p = .holdover
  ({ s with ptp := { s.ptp with state := p }, pins := { s.pins with ppsOut := s.pins.ppsOut && held } } : State).raise 0xA00007

/-- A change of the pair state (R294). -/
def State.setPair (s : State) (p : PairState) : State :=
  if s.pair.state = p then s else ({ s with pair := { s.pair with state := p } } : State).raise 0xA10002

/-! ### Fault records -/

/-- Active profile (R21): true is E6. -/
def State.e6 (s : State) : Bool := s.entry 0x101002 = 1

/-- A fault record of R394: fields given, header fields from the state; counted, the newest 65,536 kept, evented; journaled as HOT data,
512 records a page, which clears CLEAN (R372, R395). -/
def State.record (s : State) (kind level action unitType unit unit2 : Nat) (outcome : Status) (detail : Nat) : State :=
  let n := s.entry 0x700001 + 1
  let w := s.now % 2 ^ 64 * 2 ^ 192 + stepOf s.now % 2 ^ 64 * 2 ^ 128 + n % 2 ^ 32 * 2 ^ 96 + kind % 256 * 2 ^ 88
    + level % 16 * 2 ^ 84 + action % 16 * 2 ^ 80 + unitType % 16 * 2 ^ 76 + s.e6.toNat * 2 ^ 72 + unit % 2 ^ 16 * 2 ^ 56
    + unit2 % 256 * 2 ^ 48 + statusCode outcome * 2 ^ 40 + detail % 2 ^ 32
  let recs := s.faults.records ++ [BitVec.ofNat 256 w]
  (((({ s with faults := { s.faults with records := recs.drop (recs.length - 65536) } } : State).hotPages
    (s.flash.hotWrite hotFaults ((n - 1) / 512 % 128) 4)).count 0x700001 1).setEntry 0x700004 s.now).raise 0x700004

/-! ### ALERT_N -/

/-- ALERT_N is low while an alert condition holds (R440). -/
def State.alert (s : State) : State :=
  { s with pins := { s.pins with alertN := !(!s.power.warned.isEmpty || s.power.mv < 46000 || s.power.mv > 59500
      || s.power.flowLow || s.power.inletHigh || s.mod.op = .dark) } }

end Sys2Proof.Machine
end

