-- ==== Sys2Proof/Machine/Ledgers.lean ====
section
/-!
DEFINITION. Ledgers, their capacities and loads, admission arithmetic, capacity pools (R36..R43, R48, R52, R98..R106, R200,
R201, R383).
-/
namespace Sys2Proof.Machine

/-! ### Fractions of natural numbers -/

/-- Sum of two fractions (numerator, denominator). -/
def fadd (a b : Nat × Nat) : Nat × Nat :=
  if a.2 = b.2 then (a.1 + b.1, a.2) else (a.1 * b.2 + b.1 * a.2, a.2 * b.2)

/-- Order of two fractions with positive denominators. -/
def fle (a b : Nat × Nat) : Bool := a.1 * b.2 ≤ b.1 * a.2

/-- Sum of a list of fractions. -/
def fsum (l : List (Nat × Nat)) : Nat × Nat := l.foldl fadd (0, 1)

/-! ### Cells in service -/

/-- Working logical cells of a block: the spare replaces the first fenced cell (R13, R381). -/
def State.blockCells (s : State) (b : Nat) : Nat :=
  if s.blockFenced b then 0
  else match getKey s.faults.fencedCells b with
    | none => 16
    | some w => 16 - (popcount17 w - 1)

/-- C of R37. -/
def State.workCells (s : State) : Nat := (List.range 768).foldl (fun n b => n + s.blockCells b) 0

/-- Blocks in region scan order, ascending: a fenced block or region drops out at once, a fenced die at the next step boundary
(R14, R380). -/
def State.scanOrder (s : State) : List Nat := (List.range 768).filter fun b =>
  !s.faults.fencedBlocks.contains b && !s.faults.fencedRegions.contains (b / 24) && !s.faults.droppedDies.contains (b / 192)

/-! ### Capacities, multiplied by 10,000 (the unit of u) -/

/-- Commitment ceiling u in 1/10,000 (R57). -/
def State.ceiling (s : State) : Nat := s.entry 0x200001

/-- The lowest cadence among the regions that completed handshakes in the last window, 0 when none did (R16; log 74). -/
def State.lowCadence (s : State) : Nat :=
  (s.power.cadence.filter (· ≠ 0)).foldl (fun m c => if m = 0 then c else min m c) 0

/-- Cadence scale of R48: (c, 1600) with the cadence c that the last boundary took in deep dimming, (1, 1) otherwise. -/
def State.scale (s : State) : Nat × Nat :=
  if s.power.proj ≠ 0 then (min 1600 s.power.proj, 1600) else (1, 1)

/-- In-service ports that join the module directly to its pair peer (R293). -/
def State.directPorts (s : State) : List Nat :=
  (List.range 16).filter fun p => let x := s.fab.ports.getD p {}
    x.inService && s.entry 0xA10001 ≠ 0 && x.neighbour = s.entry 0xA10001

/-- Bytes per base step of the mirror ledger: the allotment, at most what the direct ports less one carry (R297). -/
def State.mirrorBytes (s : State) : Nat := min (s.entry 0xA10003) ((s.directPorts.length - 1) * 5000000)

/-- LC slate quota of this member (R121); 256 without a group. -/
def quotaOf (img : IndexImage) : Nat := if img.members ≤ 1 then 256 else img.lcQuota.getD img.member 0

/-- Capacity of a ledger per unit of time without u, as a fraction, unscaled (R37). -/
def State.rawCap (s : State) (l : Ledger) : Nat :=
  match l with
  | .handshakes => s.workCells * 80000
  | .genBytes => s.adm.bGen * 50000
  | .tblBytes => (58980 - s.adm.bSweepTbl - s.adm.bGen) * 50000
  | .slate => s.index.live.head?.elim 256 fun v => min 256 (quotaOf v.img)
  | .flash => 76800000 * (128 - s.flash.fencedTargets.length) / 128
  | .text => 50000
  | .handoff => s.entry 0xA01001
  | .mirror => s.mirrorBytes

/-- Capacity of a ledger per unit of time (R37, R48, R173, R290, R297). -/
def State.cap (s : State) (l : Ledger) : Nat × Nat :=
  match l with
  | .handshakes | .text => (s.ceiling * s.rawCap l * s.scale.1, 10000 * s.scale.2)
  | .genBytes | .tblBytes | .handoff | .mirror => (s.ceiling * s.rawCap l, 10000)
  | .slate => (s.rawCap .slate, 1)
  | .flash => (s.ceiling * s.rawCap .flash - s.entry 0x310002 * 10000, 10000)

/-- What a ledger has for LC charges: its capacity, less what the serve allotment takes of the table bytes (R252). -/
def State.room (s : State) (l : Ledger) : Nat × Nat :=
  let c := s.cap l
  if l = .tblBytes then (c.1 - s.entry 0x500003 * c.2, c.2) else c

/-- Unit of time of a ledger at an instant (R37, R297): base step, 1 ms slot, sweep. -/
def State.unitOf (s : State) (l : Ledger) (t : Nat) : Nat :=
  match l with
  | .flash | .handoff => t / 1000000
  | .slate => s.sweep.nextNo
  | _ => stepOf t

/-! ### Loads -/

/-- The resident model in a slot. -/
def State.model (s : State) (slot : Nat) : Option ModelRes := s.img.models.find? fun m => m.slot = slot

/-- A model's weight bytes per step, with homeless tiles and what reconstruction adds (R40, R103, R382). -/
def ModelRes.wStep (m : ModelRes) : Nat := m.img.wStep + m.homeless + m.rebuilt

/-- Work of one token of a stream of maximum context `l` (h_i of R41). -/
def tokenHs (m : ModelImage) (l : Nat) : Nat := m.hTok + m.hCtx * ceilDiv l 1024

/-- A request's stream has its final status. -/
def State.ended (s : State) (r : Request) : Bool := s.seq.streams.any fun st => st.fn = r.fn && st.tag = r.tag && st.ending.isSome

/-- LC streams that the ledgers carry: from admission to end or withdrawal (R41). -/
def State.lcStreams (s : State) : List Request := s.reqs.filter fun r => r.gen && r.lc && !r.withdrawn && !s.ended r

/-- LC streams of a model. -/
def State.lcOf (s : State) (slot : Nat) : List Request := s.lcStreams.filter fun r => r.model = slot

/-- Bytes that a plan's copy writes at its destination at most: of a tile its header and the largest RAW body (R61). -/
def planSpan (c : PlanCopy) : Nat :=
  match c.kind with
  | .tile | .transpose => 2192
  | _ => c.len

/-- Bytes of a plan's copies that the table share carries in one run of the plan: those that read or write HBM other than weights
(R37, R96). -/
def planTbl (m : ModelImage) : Nat :=
  ((m.layers.flatMap (·.copies)).map fun c =>
    if c.src.tier ≠ .image && (c.src.tier = .pool || c.dst.tier = .pool || c.dst.tier = .image) then planSpan c else 0).sum

/-- Steady load of one model on a ledger at `n` base steps per model step (R41). -/
def modelLoad (m : ModelRes) (rs : List Request) (n : Nat) (l : Ledger) : Nat × Nat :=
  if rs.isEmpty then (0, 1) else
  match l with
  | .handshakes => (rs.foldl (fun a r => a + tokenHs m.img (r.bound + r.maxNew)) m.img.hStep, n)
  | .genBytes => (rs.foldl (fun a r => a + m.img.kvTok * (r.bound + r.maxNew)) m.wStep, n)
  | .tblBytes => (rs.length * m.img.kvTok + planTbl m.img, n)
  | _ => (0, 1)

/-- Per-step charge of a covered commitment of this module on the mirror ledger (R297). -/
def State.mirrorLoad (s : State) (r : Request) : Nat :=
  if r.mirror || !r.lc || r.withdrawn then 0
  else match r.covered with
    | 1 => (if r.gen then r.nodes * (match s.model r.model with
        | some m => m.img.kvTok
        | none => 0) else 0) + 256
    | 2 => 512
    | _ => 0

/-- Accepted-KV copy bytes that a reflected stream charges per step (R298). -/
def State.reflectCopy (s : State) (r : Request) : Nat :=
  if r.covered = 2 && r.gen && r.lc && !r.withdrawn then
    (r.nodes - 1) * (match s.model r.model with
      | some m => m.img.kvTok
      | none => 0)
  else 0

/-- Steady load of a ledger: every model with LC streams (R41), and coverage (R297, R298). -/
def State.steady (s : State) (l : Ledger) : Nat × Nat :=
  match l with
  | .mirror => ((s.reqs.map s.mirrorLoad).sum, 1)
  | .tblBytes => fadd ((s.reqs.map s.reflectCopy).sum, 1)
      (fsum (s.img.models.map fun m => modelLoad m (s.lcOf m.slot) (max 1 m.nLc) l))
  | _ => fsum (s.img.models.map fun m => modelLoad m (s.lcOf m.slot) (max 1 m.nLc) l)

/-- Timed charges on a ledger in one unit (R43). -/
def State.timed (s : State) (l : Ledger) (u : Nat) : Nat × Nat :=
  fsum ((s.adm.charges.filter fun c => c.ledger = l && c.first ≤ u && u ≤ c.last).map
    fun c => (c.amount, c.last - c.first + 1))

/-- LC load of a ledger in one unit of time. -/
def State.load (s : State) (l : Ledger) (u : Nat) : Nat × Nat := fadd (s.steady l) (s.timed l u)

/-- Units from `now` on at which the load of a ledger can be highest: the present one and where charges begin. -/
def State.units (s : State) (l : Ledger) : List Nat :=
  let u := s.unitOf l s.now
  u :: ((s.adm.charges.filter fun c => c.ledger = l && u < c.first).map (·.first))

/-- A ledger holds its LC charges. -/
def State.ledgerOk (s : State) (l : Ledger) : Bool := (s.units l).all fun u => fle (s.load l u) (s.room l)

/-- Mask nodes, or committed tokens, that an LC stream counts for: one, or its nodes when it is reflected (R298). -/
def Request.weight (r : Request) : Nat := if r.covered = 2 then r.nodes else 1

/-- LC streams that name a constraint list (R200). -/
def State.constrained (s : State) : Nat :=
  ((s.lcStreams.filter fun r => bits r.payload.opts.toNat 223 208 ≠ 0).map (·.weight)).sum

/-- The step limits of the mask unit and of the output path hold for LC streams (R200, R201). -/
def State.textOk (s : State) : Bool :=
  s.constrained ≤ s.ceiling * 4000 / 10000 && (s.lcStreams.map (·.weight)).sum ≤ s.ceiling * 16384 / 10000

/-! ### Capacity pools (R105) -/

/-- Granules reserved by requests. -/
def State.granUsed (s : State) : Granules :=
  s.reqs.foldl (fun g r => { hbm := g.hbm + r.gran.hbm, region := g.region + r.gran.region, block := g.block + r.gran.block
                             hub := g.hub + r.gran.hub }) {}

/-- Granules of a tier that plans hold: those that their copies write, as (unit, granule) (R105; log 25). -/
def planTouches (t : Tier) (size : Nat) (ms : List ModelImage) : List (Nat × Nat) :=
  ((ms.flatMap (·.layers)).flatMap fun l => (l.copies.filter fun c => c.dst.tier = t).flatMap fun c =>
    (List.range (ceilDiv (c.dst.off % size + planSpan c) size)).map fun i => (c.dst.unit, c.dst.off / size + i)).eraseDups

/-- Dies whose areas are in service. -/
def State.diesIn (s : State) : List Nat := (List.range 4).filter fun d => (s.pools.areas.getD d []).getD 3 0 ≠ 0

/-- Regions whose granules are in service: those of the dies in service that are not fenced (R105, R383; log 198). -/
def State.storesIn (s : State) : List Nat :=
  (List.range 32).filter fun r => s.diesIn.contains (r / 8) && !s.faults.fencedRegions.contains r

/-- Granules of region stores and of block scratch of each region that plan images do not hold. -/
def State.regionEach (s : State) : Nat → Nat :=
  let held := planTouches .region 65536 (s.img.models.map (·.img))
  fun r => 256 - (held.filter fun x => x.1 = r).length
def State.blockEach (s : State) : Nat → Nat :=
  let held := planTouches .block 16384 (s.img.models.map (·.img))
  fun r => 3072 - (held.filter fun x => x.1 / 24 = r).length

/-- Request-pool bytes in service: area 3 of every die (R101). -/
def State.requestPool (s : State) : Nat := s.pools.areas.foldl (fun n d => n + d.getD 3 0) 0

/-- Request-pool granules of function scratch, sized in MiB by the entry in force (R322). -/
def State.scratchGranules (s : State) : Nat :=
  (List.range 64).foldl (fun n f => n + ceilDiv (s.inForce (perFn 0x6012 f)) 2) 0

/-- Granules of the first four pools that requests may hold. -/
def State.granAll (s : State) : Granules :=
  { hbm := s.requestPool / 2097152 - s.scratchGranules
    region := (s.storesIn.map s.regionEach).sum
    block := (s.storesIn.map s.blockEach).sum
    hub := s.pools.hubGranules - s.pools.ovfHeld }

/-- Free granules of the first four pools. -/
def State.granFree (s : State) : Granules :=
  let u := s.granUsed
  let a := s.granAll
  { hbm := a.hbm - u.hbm, region := a.region - u.region, block := a.block - u.block, hub := a.hub - u.hub }

/-- Every reservation made still holds (R39, R41). -/
def State.granOk (s : State) : Bool :=
  let u := s.granUsed
  let a := s.granAll
  decide (u.hbm ≤ a.hbm) && decide (u.region ≤ a.region) && decide (u.block ≤ a.block) && decide (u.hub ≤ a.hub)

/-- `n` taken from the front of a list of counts. -/
def fill : List Nat → Nat → List Nat
  | [], _ => []
  | f :: r, n => min f n :: fill r (n - min f n)

/-- Free granules of a pool in each of `n` units, dies or regions: `each` of a unit in service, less those that requests hold there. -/
def State.freeAt (s : State) (n : Nat) (units : List Nat) (each : Nat → Nat) (at_ : Granules → List Nat) : List Nat :=
  (List.range n).map fun d =>
    if units.contains d then each d - (s.reqs.map fun r => (at_ r.gran).getD d 0).sum else 0

/-- The places of `k` granules: units ascending; what the rounding of a die's size leaves over goes with the first (log 25). -/
def State.placesOf (s : State) (n : Nat) (units : List Nat) (each : Nat → Nat) (at_ : Granules → List Nat) (k : Nat) : List Nat :=
  let l := fill (s.freeAt n units each at_) k
  modAt l (units.headD 0) fun x => x + (k - l.sum)

/-- The granule list that AP writes at admission (R105). -/
def State.placeGran (s : State) (g : Granules) : Granules :=
  { g with
    hbmAt := s.placesOf 4 s.diesIn (fun d => (s.pools.areas.getD d []).getD 3 0 / 2097152) (·.hbmAt) g.hbm
    regionAt := s.placesOf 32 s.storesIn s.regionEach (·.regionAt) g.region
    blockAt := s.placesOf 32 s.storesIn s.blockEach (·.blockAt) g.block }

/-- Sequence table entries that are not FREE. -/
def State.seqUsed (s : State) : Nat := (s.seq.entries.filter fun e => e.2.state ≠ .free).length

/-- Free sequence table entries: a slot whose generation count has run out stays in use only while it is held. -/
def State.seqFree (s : State) : Nat := 65536 - s.seqUsed

/-- The pools hold a reservation; 256 region-store and 3,072 block-scratch granules stay free (R39, R383). -/
def State.granFits (s : State) (g : Granules) (slot : Bool) : Bool :=
  let f := s.granFree
  decide (g.hbm ≤ f.hbm) && decide (g.region + 256 ≤ f.region) && decide (g.block + 3072 ≤ f.block)
    && decide (g.hub ≤ f.hub) && (!slot || decide (1 ≤ s.seqFree))

/-! ### The conditions of R41 -/

/-- Every condition of R41 holds. -/
def State.admissionOk (s : State) : Bool :=
  s.ledgerOk .handshakes && s.ledgerOk .genBytes && s.ledgerOk .tblBytes && s.ledgerOk .flash && s.ledgerOk .text
    && s.ledgerOk .handoff && s.ledgerOk .mirror && s.textOk && s.granOk
    && s.img.models.all fun m => (s.lcOf m.slot).isEmpty || m.img.tMinHs ≤ max 1 m.nLc * 80000

/-- Smallest number, from `n` on, that passes a test. -/
def least (p : Nat → Bool) : Nat → Nat → Option Nat
  | 0, _ => none
  | fuel + 1, n => if p n then some n else least p fuel (n + 1)

/-- Free part of a ledger in a unit, as a fraction. -/
def State.free (s : State) (l : Ledger) (u : Nat) : Nat × Nat :=
  let c := s.room l
  let x := s.load l u
  (c.1 * x.2 - x.1 * c.2, c.2 * x.2)

/-- A number of units beyond which no smaller one than a fitting one is left to try. -/
def State.spreadBound (s : State) (l : Ledger) (total start : Nat) : Nat :=
  let us := (s.adm.charges.filter fun c => c.ledger = l && start ≤ c.last).flatMap fun c => [c.first, c.last + 1]
  let n := (start :: us).foldl (fun m u =>
    let f := s.free l (max start u)
    if f.1 = 0 then m else max m (ceilDiv (total * f.2) f.1)) 0
  n + (us.foldl max start - start) + 1

/-- Smallest number of units over which `total` in equal shares fits the free ledger in each of them from `start` on
(R43); none when no number does. -/
def State.spread (s : State) (l : Ledger) (total start : Nat) : Option Nat :=
  if total = 0 then some 0 else
  least (fun n => (List.range n).all fun i => fle (fadd (s.load l (start + i)) (total, n)) (s.room l))
    (s.spreadBound l total start) 1

/-- Adds a timed charge. -/
def State.charge (s : State) (fn tag : Nat) (l : Ledger) (first n amount : Nat) : State :=
  if n = 0 || amount = 0 then s else
  { s with adm := { s.adm with charges := s.adm.charges ++ [⟨fn, tag, l, first, first + n - 1, amount⟩] } }

/-- Relieves a request's timed charges. -/
def State.relieve (s : State) (fn tag : Nat) : State :=
  { s with adm := { s.adm with charges := s.adm.charges.filter fun c => !(c.fn = fn && c.tag = tag) } }

/-- n of a streamed model without LC streams (R42). -/
def State.nBe (s : State) (m : ModelRes) : Nat :=
  if m.img.resident then 1 else
  (least (fun n => decide (m.img.tMinHs ≤ n * 80000) && decide (m.wStep ≤ n * s.adm.bGen * 50000)) 255 1).getD 256

/-- Base steps per model step in force (R42). -/
def State.nOf (s : State) (m : ModelRes) : Nat :=
  if m.img.resident then 1 else if m.nLc ≠ 0 then m.nLc else s.nBe m

/-! ### The conflict rule -/

/-- AP refuses LC admissions: from a capacity event until its re-evaluation, and at the boundary of a withdrawal (R54). -/
def State.lcClosed (s : State) : Bool := s.adm.refuseLc || s.adm.withdrewAt = some s.now

/-- The module that admitted a request: the pair peer for one mirrored or taken over from it (R52, R306). -/
def State.admitter (s : State) (r : Request) : Nat :=
  if r.mirror then s.entry 0xA10001
  else if 2000 ≤ r.fn && r.fn < 3000 then s.fab.alsoId.headD (s.entry 0xA10001) else s.fab.ident

/-- LC commitments not yet withdrawn, the latest ADMIT_TIME first; ties between the members of a mirror pair withdraw the
higher fabric identifier first (R52). -/
def State.latest (s : State) : Option Request :=
  (s.reqs.filter fun r => r.lc && !r.withdrawn && r.round.isNone && !r.cancelling && !s.ended r).foldl (fun (m : Option Request) r =>
    match m with
    | none => some r
    | some b =>
      if b.promise.admitTime < r.promise.admitTime then some r
      else if b.promise.admitTime = r.promise.admitTime && s.admitter b < s.admitter r then some r
      else some b) none

end Sys2Proof.Machine
end

