-- ==== Sys2Proof/Machine/Operands.lean ====
section
/-!
DEFINITION. Operand forms: the request descriptor (R319), its checks 1 to 6 (R321, R323, R324), and fetching (R317).
-/
namespace Sys2Proof.Machine

/-! ### Descriptor fields (R319) -/

def dOp (d : BitVec 512) : Nat := bits d.toNat 511 504
def dClass (d : BitVec 512) : Nat := bits d.toNat 503 496
def dMode (d : BitVec 512) : Nat := bits d.toNat 495 494
def dInline (d : BitVec 512) : Nat := bits d.toNat 493 490
def dVec (d : BitVec 512) : Nat := bits d.toNat 489 489
def dListCount (d : BitVec 512) : Nat := bits d.toNat 479 464
def dIdCount (d : BitVec 512) : Nat := bits d.toNat 463 448
def dTag (d : BitVec 512) : Nat := bits d.toNat 447 384
def dTarget (d : BitVec 512) : Nat := bits d.toNat 383 320
def dPayAddr (d : BitVec 512) : Nat := bits d.toNat 319 256
def dPayLen (d : BitVec 512) : Nat := bits d.toNat 255 224
def dTextLen (d : BitVec 512) : Nat := bits d.toNat 223 192
def dResAddr (d : BitVec 512) : Nat := bits d.toNat 191 128
def dResLen (d : BitVec 512) : Nat := bits d.toNat 127 96

/-- A descriptor from its fields (R319). -/
def mkDesc (op cls mode inl vec listCount idCount tag target payAddr payLen textLen resAddr resLen : Nat) : BitVec 512 :=
  BitVec.ofNat 512 (op * 2 ^ 504 + cls * 2 ^ 496 + mode * 2 ^ 494 + inl * 2 ^ 490 + vec * 2 ^ 489 + listCount * 2 ^ 464
    + idCount * 2 ^ 448 + tag * 2 ^ 384 + target * 2 ^ 320 + payAddr * 2 ^ 256 + payLen * 2 ^ 224 + textLen * 2 ^ 192
    + resAddr * 2 ^ 128 + resLen * 2 ^ 96)

/-! ### Opcodes (R318) -/

/-- Opcodes whose class must be 1 (R319). -/
def beOnly (op : Nat) : Bool := op ∈ [0x07, 0x3F, 0x20, 0x21, 0x22, 0x12]

/-- Opcodes that carry text (R319, R320). -/
def hasText (op : Nat) : Bool := op ∈ [0x01, 0x02, 0x03, 0x04, 0x05]

/-- Opcodes that write a result buffer (R133, R167, R246, R320). -/
def hasResult (op : Nat) : Bool := op ∈ [0x01, 0x02, 0x03, 0x04, 0x05, 0x10]

/-- Check 1 of R323: opcode, class, mode, reserved fields, ranges (R319, R321). `op` is the row's opcode. -/
def check1 (op : Nat) (d : BitVec 512) : Bool :=
  dOp d = op && dClass d ≤ 1 && (!beOnly op || dClass d = 1) && dMode d ≤ 2
    && bits d.toNat 488 480 = 0 && bits d.toNat 95 0 = 0
    && (if dMode d = 2 then 1 ≤ dInline d && dPayAddr d = 0 else dInline d = 0)
    && (op = 0x04 || dVec d = 0)
    && (if dMode d = 1 then 1 ≤ dListCount d && dListCount d ≤ 256 else dListCount d = 0)
    && (if op = 0x04 then 1 ≤ dIdCount d && dIdCount d ≤ 512 else if op = 0x05 then dIdCount d ≤ 64 else dIdCount d = 0)
    && (op = 0x07 || dTarget d = 0)
    && dPayLen d ≠ 0xFFFFFFFF && dTextLen d ≠ 0xFFFFFFFF && dResLen d ≠ 0xFFFFFFFF
    && (hasText op || dTextLen d = 0)
    && dResAddr d % 64 = 0 && (hasResult op || (dResAddr d = 0 && dResLen d = 0))
    && (!(op = 0x07 || op = 0x3F) || (dMode d = 0 && dPayAddr d = 0 && dPayLen d = 0))

/-- Check 2 of R323: PAYLOAD_LEN in INLINE, the text limit (R185). -/
def check2 (d : BitVec 512) : Bool :=
  (dMode d ≠ 2 || dPayLen d ≤ 64 * dInline d) && dTextLen d ≤ 1048576

/-- A host range lies wholly within one enabled window (R314); an empty range names nothing. -/
def inWindows (ws : List Win) (addr len : Nat) : Bool :=
  len = 0 || ws.any fun w => w.len ≠ 0 && w.base ≤ addr && addr + len ≤ w.base + w.len * 4096

/-- Check 3 of R323: windows of the ranges the descriptor names. -/
def check3 (ws : List Win) (d : BitVec 512) : Bool :=
  (match dMode d with
    | 0 => inWindows ws (dPayAddr d) (dPayLen d)
    | 1 => inWindows ws (dPayAddr d) (16 * dListCount d)
    | _ => true)
  && inWindows ws (dResAddr d) (dResLen d)

/-- Address of a buffer list entry (R320). -/
def listAddr (e : BitVec 128) : Nat := bits e.toNat 127 64
/-- Length of a buffer list entry (R320). -/
def listLen (e : BitVec 128) : Nat := bits e.toNat 63 32

/-- Reserved and all-ones fields of a buffer list (R320, R321). -/
def listFields (l : List (BitVec 128)) : Bool := l.all fun e => bits e.toNat 31 0 = 0 && listLen e ≠ 0xFFFFFFFF

/-- Check 4 of R323: windows of every listed buffer. -/
def check4 (ws : List Win) (x : Fetched) : Bool :=
  dMode x.desc ≠ 1 || x.list.all fun e => inWindows ws (listAddr e) (listLen e)

/-- Check 5 of R323: PAYLOAD_LEN against the listed lengths. -/
def check5 (x : Fetched) : Bool :=
  dMode x.desc ≠ 1 || dPayLen x.desc ≤ (x.list.map listLen).sum

/-! ### Operating state (R324) -/

/-- The module fetches descriptors in this state. -/
def fetching (o : OpState) : Bool := o ∈ [.dark, .ready, .serving, .draining]

/-- The state admits the opcode (R324); `deferSwap`: a MODEL_SWAP with DEFER = 1, the one exception (R237). -/
def stateAdmits (o : OpState) (op : Nat) (deferSwap : Bool) : Bool :=
  if op = 0x3F then true
  else if op = 0x07 then o ∈ [.ready, .serving, .draining]
  else if op ∈ [0x20, 0x21, 0x22, 0x12, 0x30] then o = .ready || o = .serving || (deferSwap && o = .draining)
  else o = .serving

/-! ### Fetch (R317) -/

/-- A submission ring holds a descriptor the module may fetch. -/
def SubRing.ready (r : SubRing) : Bool := r.enable && !r.error && r.head ≠ r.tail

/-- Free completion entries beyond those reserved (R317). -/
def CplRing.free (c : CplRing) : Nat := if c.enable then 2 ^ c.size - c.used - c.reserved else 0

/-- The ring of a function that is served next (R317). -/
def fnReady (s : State) (f : Nat) : Option Nat :=
  let fn := s.fn f
  if s.fnExists f && !fn.overrun && 2 ≤ fn.cpl.free then (fn.subs.findIdx? SubRing.ready) else none

/-- The function and ring of the next fetch: round-robin after the function served last (R317). -/
def nextFetch (s : State) : Option (Nat × Nat) :=
  if fetching s.mod.op then
    (List.range 64).findSome? fun i =>
      let f := (s.host.lastServed + 1 + i) % 64
      (fnReady s f).map fun r => (f, r)
  else none

/-- Takes the descriptor off its ring: HEAD passes it and its inline entries, two completion entries are reserved
(R317, R320). -/
def fetchFrom (s : State) (f r : Nat) (d : BitVec 512) : State :=
  let s1 := s.modFn f fun fn => { fn with
    subs := modAt fn.subs r fun q => { q with head := (q.head + 1 + (if dMode d = 2 then dInline d else 0)) % 2 ^ q.size }
    cpl := { fn.cpl with reserved := fn.cpl.reserved + 2 } }
  ({ s1 with host := { s1.host with lastServed := f } } : State).count 0x110002 1

/-- The request a descriptor makes, before admission. -/
def requestOf (s : State) (f r : Nat) (d : BitVec 512) : Request :=
  { fn := f, tag := dTag d, op := dOp d, desc := d, ring := r, index := ((s.fn f).subs.getD r {}).head
    lc := dClass d = 0, wins := (s.fn f).wins }

/-- A tag is outstanding in its function: of a request, or of a CANCEL that waits for its target (R323). -/
def State.tagUsed (s : State) (f tag : Nat) : Bool :=
  s.reqs.any fun q => q.fn = f && (q.tag = tag || q.cancels.any fun c => c.tag = tag)

/-- Checks 1 to 6 of R323 in order; none: all hold. `deferSwap` as in `stateAdmits`. -/
def checks16 (s : State) (f op : Nat) (x : Fetched) (deferSwap : Bool) : Option Status :=
  let ws := (s.fn f).wins
  if !check1 op x.desc then some .fieldReserved
  else if !check2 x.desc then some .lengthExceeds
  else if !check3 ws x.desc then some .accessDenied
  else if dMode x.desc = 1 && !listFields x.list then some .fieldReserved
  else if !check4 ws x then some .accessDenied
  else if !check5 x then some .lengthExceeds
  else if !stateAdmits s.mod.op op deferSwap || s.tagUsed f (dTag x.desc) then some .stateConflict
  else none

end Sys2Proof.Machine
end

