-- ==== Sys2Proof/Machine/Requests.lean ====
section
/-!
DEFINITION. The life of a request: refusal, ADMIT, FINAL, cancellation, release (R28, R29, R106, R325..R327), step batch
records on a ring (R328), and what every descriptor row does first (R323).
-/
namespace Sys2Proof.Machine

/-! ### Ending a request -/

/-- Completes the CANCELs that waited for a target, after its FINAL entry (R327). -/
def State.endCancels (s : State) (r : Request) (applied : Bool) : State :=
  r.cancels.foldl (fun s c =>
    s.putCpl r.fn (cplEncode c.tag 0x07 c.index c.ring (s.fn r.fn).cpl.phase 0
      { status := .done, final := true, applied := applied }) 1) s

/-! ### Copies that nothing holds -/

/-- A request is bound to an index version: from its slate until stage 11 has finished (R26, R137). -/
def Request.boundTo (s : State) (r : Request) (v : Nat) : Bool :=
  r.work.version = v && (r.op = 0x04 || r.op = 0x05 || (6 ≤ r.work.stage)
    || (s.sweep.closed.any fun c => c.2.any fun p => p.fn = r.fn && p.tag = r.tag))
    && r.work.stage ≤ 11 && r.op ∈ [0x01, 0x02, 0x04, 0x05]

/-- An old index version is still in use. -/
def State.verHeld (s : State) (v : Nat) : Bool :=
  s.reqs.any (fun r => r.boundTo s v) || (s.sweep.running.toList ++ s.sweep.finished).any fun w => w.version = v

/-- Shard of a passage ID. -/
def shardOf (id : Nat) : Nat := id / 2 ^ 48

/-- A live version by number. -/
def State.liveVer (s : State) (v : Nat) : Option IndexVer := s.index.live.find? fun x => x.img.version = v

/-- The stored image that a request's reads come from; none once its key slot is erased (R373). -/
def State.readFrom (s : State) (f tag : Nat) : Option Stored :=
  (s.req f tag).bind fun r => (s.liveVer r.work.version).bind fun v => s.flash.stored.find? fun x => x.id = v.imageId

/-- A request waits for reads of records or passages (R159, R160). -/
def Request.readsFlash (r : Request) : Bool :=
  (r.work.stage = 8 || r.work.stage = 11) && r.work.cands.any fun c =>
    let o := c.id % 2 ^ 48
    !r.work.readOrds.contains o && !r.work.lostOrds.contains o

/-- Requests with reads under way in some logical blocks (R366). -/
def State.flashReaders (s : State) (blocks : List Nat) : List (Nat × Nat) :=
  (s.reqs.filter fun r => r.readsFlash && (s.readFrom r.fn r.tag).any fun x => x.blocks.any fun b => blocks.contains b).map
    fun r => (r.fn, r.tag)

/-- Frees the map's logical blocks and queues their superblocks for erase, under a trim record (R367). -/
def State.trim (s : State) (blocks : List Nat) : State := { s with flash := s.flash.trim (s.flashReaders blocks) blocks }

/-- Frees a stored image (R362, R367). -/
def State.dropStored (s : State) (id : Nat) : State :=
  match s.flash.stored.find? fun x => x.id = id with
  | none => s
  | some x => ({ s with flash := { s.flash with stored := s.flash.stored.filter fun x => x.id ≠ id } } : State).trim x.blocks

/-- Old models, templates and constraint lists that no request holds go (R161, R198, R236). -/
def State.pruneUsers (s : State) : State :=
  let models := s.img.models.filter fun m => !m.old || s.reqs.any fun r => r.gen && r.model = m.slot
  let keepT (m : TemplateRes) : Bool := !m.old || s.reqs.any fun r => r.template = m.copy_
  let keepC (m : ClistRes) : Bool := !m.old || s.reqs.any fun r => r.clist = m.copy_
  let freed := ((s.img.templates.filter fun m => !keepT m).map (·.gran)).sum
    + ((s.img.clists.filter fun m => !keepC m).map (·.gran)).sum
  { s with
    img := { s.img with models := models, templates := s.img.templates.filter keepT, clists := s.img.clists.filter keepC }
    pools := { s.pools with hubGranules := s.pools.hubGranules + freed } }

/-- Index versions after the current one go once nothing is bound to them, with their flash copies (R137, R362). -/
def State.pruneIndex (s : State) : State :=
  match s.index.live with
  | [] => s
  | c :: old =>
    let keep := old.filter fun v => s.verHeld v.img.version
    let gone := old.filter fun v => !s.verHeld v.img.version
    gone.foldl (fun s v => s.dropStored v.imageId) { s with index := { s.index with live := c :: keep } }

/-- Old vocabularies go once no request, template, model or index references them (R178). -/
def State.pruneVocabs (s : State) : State :=
  let keep (v : VocabRes) : Bool := !v.old || s.reqs.any (fun r => r.vocabs.any fun b => b.2 = v.copy_)
    || s.img.models.any (fun m => m.vocab = v.copy_) || s.img.templates.any (fun m => m.vocab = v.copy_)
    || s.index.live.any (fun x => x.vocab = v.copy_) || s.index.pub.any fun p => p.vocab = v.copy_
  { s with
    img := { s.img with vocabs := s.img.vocabs.filter keep }
    pools := { s.pools with hubGranules := s.pools.hubGranules + ((s.img.vocabs.filter fun v => !keep v).map (·.gran)).sum } }

/-- Every copy that nothing holds any more is freed. -/
def State.prune (s : State) : State := s.pruneUsers.pruneIndex.pruneVocabs

/-- A request's bookings and its place among waiting BE queries go; a sketch in a closed slate stays (R28). -/
def State.unbook (s : State) (f tag : Nat) : State :=
  { s with sweep := { s.sweep with
    bookings := s.sweep.bookings.filter fun b => !(b.2.1 = f && b.2.2 = tag)
    beQueue := s.sweep.beQueue.filter fun q => !(q.fn = f && q.tag = tag) } }

/-- A slot whose stream never got an entry in a record goes with its request (R207). -/
def State.freeUnused (s : State) (f tag : Nat) : State :=
  match s.seq.streams.find? fun st => st.fn = f && st.tag = tag && !st.freeing with
  | some st => s.freeSlot st.slot
  | none => s

/-- Frees what a request holds: charges, bookings, granules, copies and the request itself (R29, R106). -/
def State.release (s : State) (r : Request) : State :=
  ((((s.relieve r.fn r.tag).unbook r.fn r.tag).freeUnused r.fn r.tag).dropReq r.fn r.tag).prune

/-- A notice of R234: REQ_TAG, STATUS, KIND. -/
def noticeBits (status : Status) (tag kind : Nat) : BitVec 128 :=
  BitVec.ofNat 128 (tag % 2 ^ 64 * 2 ^ 64 + statusCode status * 2 ^ 56 + kind % 256 * 2 ^ 48)

/-- Queues a notice entry for the record of a function. -/
def State.notice (s : State) (route : Nat) (bits_ : BitVec 128) : State :=
  { s with step := { s.step with pend := s.step.pend ++ [⟨route, 0, ⟨0, [], []⟩, some bits_⟩] } }

/-- A result past its due time: LATE, then withdrawn, in the next record (R55). -/
def State.lateResult (s : State) (r : Request) : State :=
  if r.lc && !r.withdrawn && !r.mirror && r.promise.firstDue < s.now && r.promise.kind ≠ 0 then
    (((s.notice (s.outFn r.fn) (noticeBits .late r.tag r.promise.kind)).notice (s.outFn r.fn)
      (noticeBits .withdrawn r.tag r.promise.kind)).count 0x200023 1).count 0x200022 1
  else s

/-- The FINAL entry of an accepted request, its CANCELs, its release (R106, R326, R327). -/
def State.finish (s : State) (r : Request) (i : CplInfo) : State :=
  ((s.complete r { i with final := true } true).endCancels r i.cancelled).release r

/-- Members that still owe a request candidates hear that it is cancelled: a candidate request without candidates (R172, log 190). -/
def State.cancelAsked (s : State) (r : Request) : State :=
  if r.mirror then s else
  (r.work.asked.filter fun p => r.work.remote.contains p.1).foldl
    (fun s p => s.emit (.fabric p.2 0x13 [r.tag, r.work.version, (decide (r.work.stage = 11)).toNat]
      (candReqWire r.tag r.work.version (decide (r.work.stage = 11)) [] []))) s

/-- A request ended by cancellation: PARTIAL, CANCELLED = 1 (R327). -/
def State.finishCancelled (s : State) (r : Request) : State :=
  (s.cancelAsked r).finish r { status := .partDone, final := true, cancelled := true }

/-- A request that ends with a result: a late one is reported (R55). -/
def State.finishResult (s : State) (r : Request) (status : Status) (bytes : Nat) : State :=
  (s.lateResult r).finish r { status := status, final := true, bytes := bytes }

/-- What the step digest takes of a result: the entries of a list, or the selected passages (R302). -/
def digestItems (r : Request) : List (Nat × Int) :=
  if r.op = 0x02 then (r.work.result.elim [] (·.entries)).map fun e => (e.id, (e.dist : Int))
  else (r.work.cands.filter (·.selected)).map fun c => (c.id, c.score.getD 0)

/-- A reflected result enters the digest of the step in progress. -/
def State.noteResult (s : State) (r : Request) : State :=
  if r.covered = 2 then { s with pair := { s.pair with results := s.pair.results ++ [(r.tag, digestItems r)] } } else s

/-- Writes a result buffer: bytes as one little-endian integer (R4, R311); a partner keeps it back (R301). -/
def State.writeResult (s0 : State) (r : Request) (bytes : List Byte) : State :=
  let s := s0.noteResult r
  let o := Output.hostWrite (s.outFn r.fn) (dResAddr r.desc) bytes.length (ofLe bytes)
  if r.silent || bytes.isEmpty then s
  else if r.mirror then
    (if r.covered = 2 then { s with pair := { s.pair with keptWrites := s.pair.keptWrites ++ [(stepOf s.now, o)] } } else s)
  else s.emit o

/-- At the boundary between two stages of a request: ends it when a CANCEL waits, else goes on (R28, R172). -/
def State.stageEnd (s : State) (f tag stage : Nat) (k : Request → State → State) : State :=
  match s.req f tag with
  | none => s
  | some r =>
    if r.work.stage ≠ stage || !r.started then s
    else if r.cancelling then s.finishCancelled r
    else k r s

/-! ### Refusal and acceptance -/

/-- Descriptor rows end a request before acceptance with one FINAL entry (R29, R323); REFUSED_CAPACITY is counted, a
check of 1 to 8 is counted (R57, R332). -/
def State.reject (s : State) (r : Request) (st : Status) (early : Bool) : State :=
  let s1 := s.complete r { status := st, final := true } false
  if r.mirror then s1 else
  let s2 := if st = .refusedCapacity then s1.count 0x200021 1 else s1
  if early then s2.count 0x110003 1 else s2

/-- ADMIT_TIME of an admission at `t`: strictly rising (R32). -/
def State.admitTime (s : State) : Nat := max s.now (s.adm.lastAdmit + 1)

/-- ADMIT_TIME of a request: a mirrored one keeps its primary's (R32, R296). -/
def State.admitsAt (s : State) (r : Request) : Time := if r.mirror then r.promise.admitTime else s.admitTime

/-- An accepted request enters the outstanding ones with its promise; its ADMIT entry is written (R29, R326). -/
def State.accept (s : State) (r : Request) : State :=
  let s1 : State := { s with
    adm := { s.adm with lastAdmit := max s.adm.lastAdmit r.promise.admitTime }, reqs := s.reqs ++ [r] }
  (s1.count 0x200020 (!r.mirror).toNat).complete r { status := .done, final := false } true

/-! ### What every descriptor row does first -/

/-- Fetches the next descriptor as `x` and checks it up to check 6; a failed check ends it; then the row's own part runs on
the request (R317, R323). Nothing happens when no descriptor can be fetched (log 3). -/
def withFetch (op : Nat) (x : Fetched) (deferSwap : Bool) (s : State) (k : Request → State → State) : State :=
  match nextFetch s with
  | none => s
  | some (f, r) =>
    let q := requestOf s f r x.desc
    let s1 := fetchFrom s f r x.desc
    match checks16 s1 f op x deferSwap with
    | some st => s1.reject q st true
    | none => k q s1

/-! ### Step batch ring (R328) -/

/-- Bytes held in an overflow area. -/
def SbrRing.ovfBytes (b : SbrRing) : Nat := b.ovf.foldl (fun n r => n + r.len) 0

/-- Free bytes of a step batch ring. -/
def SbrRing.free (b : SbrRing) : Nat := 2 ^ b.size - (b.tail + 2 ^ b.size - b.head) % 2 ^ b.size

/-- Host writes of a record at a ring offset, in two parts where it wraps. -/
def sbrWrites (f : Nat) (b : SbrRing) (r : RecOut) : List Output :=
  let n := 2 ^ b.size
  if b.tail + r.len ≤ n then [.hostWrite f (b.base + b.tail) r.len r.bits]
  else
    let k := n - b.tail
    [.hostWrite f (b.base + b.tail) k (r.bits % 2 ^ (8 * k)), .hostWrite f b.base (r.len - k) (r.bits / 2 ^ (8 * k))]

/-- Places a record in the ring: its bytes, then SBR_TAIL, then vector 1. A record must leave the ring not full, since equal
offsets mean an empty ring (log 13). -/
def State.toRing (s : State) (f : Nat) (r : RecOut) : State :=
  let b := (s.fn f).sbr
  let s1 : State := { s with out := s.out ++ sbrWrites f b r }
  (s1.modFn f fun fn => { fn with sbr := { fn.sbr with tail := (b.tail + r.len) % 2 ^ b.size } }).fire f 1

/-- Ends the streams routed to a function, as though cancelled, at the next boundary; their records are discarded (R328). -/
def State.overrunStreams (s : State) (f : Nat) : State :=
  let here (st : Stream) : Bool := st.fn = f && st.ending.isNone
  let n := (s.seq.streams.filter here).length
  ({ s with
    seq := { s.seq with streams := s.seq.streams.map fun st => if here st then { st with ending := some .partDone } else st }
    reqs := s.reqs.map fun r => if r.fn = f && s.seq.streams.any (fun st => here st && st.tag = r.tag)
      then { r with cancelling := true } else r } : State).count 0x110006 n

/-- Writes a record to a function's ring, its overflow area, or discards it with an overrun (R328). -/
def State.putRecord (s : State) (f : Nat) (r : RecOut) : State :=
  let b := (s.fn f).sbr
  if !b.enable then s
  else if b.ovf.isEmpty && r.len < b.free then s.toRing f r
  else if b.ovfBytes + r.len ≤ 65536 then
    ((s.modFn f fun fn => { fn with sbr := { fn.sbr with ovf := fn.sbr.ovf ++ [r] } }).funcEvent f 2).count 0x110005 1
  else ((s.modFn f fun fn => { fn with overrun := true }).funcEvent f 3).overrunStreams f

/-- Moves held records to the ring, in order, as space appears; fetching resumes when none is held (R328). -/
def State.drainOvf (f : Nat) : Nat → State → State
  | 0, s => s
  | n + 1, s =>
    let b := (s.fn f).sbr
    match b.ovf with
    | [] => s.modFn f fun fn => { fn with overrun := false }
    | r :: rest =>
      if r.len < b.free then
        ((s.modFn f fun fn => { fn with sbr := { fn.sbr with ovf := rest } }).toRing f r) |> State.drainOvf f n
      else s

end Sys2Proof.Machine
end

