-- ==== Sys2Proof/Machine/Retrieval.lean ====
section
/-!
DEFINITION. Retrieval arithmetic: filters (R112, R118), lane lists (R123), merge (R126..R132), result record (R133), bounds of
a sweep (R125).
-/
namespace Sys2Proof.Machine

/-! ### Retrieval header (R117) -/

def rK (w : BitVec 256) : Nat := bits w.toNat 255 240
def rVersion (w : BitVec 256) : Nat := bits w.toNat 239 224
def rVersionSel (w : BitVec 256) : Nat := bits w.toNat 223 216
def rSketchSrc (w : BitVec 256) : Nat := bits w.toNat 215 208
def rTerms (w : BitVec 256) : Nat := bits w.toNat 207 200
def rScope (w : BitVec 256) : Nat := bits w.toNat 199 192

/-- Sketch bits of a format (R110). -/
def sketchBits (fmt : Nat) : Nat := if fmt = 0 then 256 else if fmt = 1 then 512 else 1024

/-- Record bytes of a format (R110). -/
def recordBytes (fmt : Nat) : Nat := sketchBits fmt / 8 + 32

/-! ### Filters -/

/-- Field of an attribute block (R112, R118). -/
def attrField (a : BitVec 256) (k : Nat) : Nat :=
  match k with
  | 0 => bits a.toNat 255 224 | 1 => bits a.toNat 223 192 | 2 => bits a.toNat 191 160 | 3 => bits a.toNat 159 128
  | 4 => bits a.toNat 127 112 | 5 => bits a.toNat 111 96 | 6 => bits a.toNat 95 80 | _ => bits a.toNat 79 64

/-- LIVE of an attribute block (R112). -/
def live (a : BitVec 256) : Bool := bits a.toNat 0 0 = 1

/-- One term of a filter (R118). -/
def termPasses (t : BitVec 128) (a : BitVec 256) : Bool :=
  let f := attrField a (bits t.toNat 123 120)
  let x := bits t.toNat 63 32
  let y := bits t.toNat 31 0
  match bits t.toNat 127 124 with
  | 1 => x ≤ f && f ≤ y
  | 2 => f < x || y < f
  | 3 => f &&& x ≠ 0
  | 4 => f &&& x = x
  | 5 => f &&& x = 0
  | _ => f &&& y = x

/-- A record passes when it is LIVE and satisfies every term in force (R118). -/
def passes (ts : List (BitVec 128)) (a : BitVec 256) : Bool := live a && ts.all fun t => termPasses t a

/-- A term in force is well formed (R118). -/
def termOk (t : BitVec 128) : Bool :=
  1 ≤ bits t.toNat 127 124 && bits t.toNat 127 124 ≤ 6 && bits t.toNat 123 120 ≤ 7 && bits t.toNat 119 64 = 0

/-- The rules of a retrieval block that need no index (R117, R118): header, terms in force, reserved terms. -/
def retrOk (w : BitVec 256) (ts : List (BitVec 128)) (ask : Bool) : Bool :=
  1 ≤ rK w && rK w ≤ 4096 && rVersionSel w ≤ 1 && (rVersionSel w = 1 || rVersion w = 0)
    && rSketchSrc w ≤ (if ask then 0 else 1) && rTerms w ≤ 8 && rScope w ≤ 1 && bits w.toNat 191 0 = 0
    && (ts.take (rTerms w)).all termOk && (ts.drop (rTerms w)).all (· = 0)

/-! ### Lane lists (R123) -/

/-- Set bits among the lowest `n`. -/
def popcount : Nat → Nat → Nat
  | 0, _ => 0
  | n + 1, v => v % 2 + popcount n (v / 2)

/-- Inserts (distance, ordinal) after every entry of no greater distance. -/
def insertDist (l : List (Nat × Nat)) (d o : Nat) : List (Nat × Nat) :=
  match l with
  | [] => [(d, o)]
  | e :: r => if e.1 ≤ d then e :: insertDist r d o else (d, o) :: e :: r

/-- Distance of the last entry. -/
def lastDist (l : List (Nat × Nat)) : Nat := (l.getLast?.getD (0, 0)).1

/-- `offer` of R123. -/
def offer (l : LaneList) (d o : Nat) : LaneList :=
  if l.entries.length < 256 then { l with entries := insertDist l.entries d o }
  else
    let w := lastDist l.entries
    if w ≤ d then { l with clipped := true, overCount := if d = w then l.overCount + 1 else l.overCount }
    else
      let es := insertDist l.entries.dropLast d o
      { l with entries := es, clipped := true, overCount := if lastDist es = w then l.overCount + 1 else 0 }

/-- One record against one slate position (R123). -/
def compareRec (bitsN q : Nat) (ts : List (BitVec 128)) (l : LaneList) (r : SketchRec) : LaneList :=
  if passes ts r.attr then
    let l' := { l with pass := l.pass + 1 }
    offer l' (popcount bitsN (r.sketch ^^^ q)) r.ord
  else l

/-- Logical lane of a record (R113). -/
def laneOf (ord : Nat) : Nat := ord / 4096 % 32

/-- Inserts in an order. -/
def insertBy {α : Type} (le : α → α → Bool) (a : α) (l : List α) : List α :=
  match l with
  | [] => [a]
  | b :: r => if le a b then a :: b :: r else b :: insertBy le a r

/-- Sorts by an order, equal elements in their first order. -/
def sortBy {α : Type} (le : α → α → Bool) (l : List α) : List α := l.foldr (insertBy le) []

/-- The list of one logical lane for one query: its chunks in ascending order, each in ascending ordinal (R113, R123). -/
def sweepLane (img : IndexImage) (q : Nat) (ts : List (BitVec 128)) (lane : Nat) : LaneList :=
  (sortBy (fun (a b : SketchRec) => a.ord ≤ b.ord) (img.records.filter fun r => laneOf r.ord = lane)).foldl
    (compareRec (sketchBits img.format) q ts) { lane := lane }

/-! ### Merge (R131) -/

/-- Passage ID of a record (R111). -/
def passageId (shard ord : Nat) : Nat := shard * 2 ^ 48 + ord

/-- Order of (DIST, PASSAGE_ID). -/
def byDist (a b : ListEntry) : Bool := a.dist < b.dist || (a.dist = b.dist && a.id ≤ b.id)

/-- Order of (PASSAGE_ID, DIST, LANE_TAG). -/
def byId (a b : ListEntry) : Bool :=
  a.id < b.id || (a.id = b.id && (a.dist < b.dist || (a.dist = b.dist && a.lane ≤ b.lane)))

/-- Of entries sorted by `byId`: the best of each passage, entries removed, passages whose removed distances differ. -/
def dedup (l : List ListEntry) : List ListEntry × Nat × Nat :=
  l.foldl (fun (acc : List ListEntry × Nat × Nat × Bool) e =>
    match acc.1 with
    | [] => ([e], acc.2.1, acc.2.2.1, false)
    | k :: r =>
      if k.id = e.id then
        let diff := k.dist ≠ e.dist
        (k :: r, acc.2.1 + 1, if diff && !acc.2.2.2 then acc.2.2.1 + 1 else acc.2.2.1, acc.2.2.2 || diff)
      else (e :: k :: r, acc.2.1, acc.2.2.1, false)) ([], 0, 0, false)
  |> fun a => (a.1.reverse, a.2.1, a.2.2.1)

/-- LANE_TAGs of entries of one passage whose distances differ, from entries sorted by `byId` (R391). -/
def mismatchTags : List ListEntry → List Nat
  | a :: b :: r => (if a.id = b.id && a.dist ≠ b.dist then [a.lane, b.lane] else []) ++ mismatchTags (b :: r)
  | _ => []

/-- Entries of the lane lists of a member (R126). -/
def laneEntries (shard member : Nat) (ls : List LaneList) : List ListEntry :=
  ls.flatMap fun l => l.entries.map fun e => ⟨passageId shard e.2, e.1, member * 32 + l.lane⟩

/-- What a counted source adds at a distance: ties left out, and passing records (R128, R130). -/
structure Source where
  last : Nat
  tie : Nat
  pass : Nat
  deriving DecidableEq, Repr

/-- The lane lists as counted sources. -/
def laneSources (ls : List LaneList) : List Source :=
  ls.map fun l => ⟨(l.entries.getLast?.map (·.1)).getD 0xFFFE, l.overCount, l.pass⟩

/-- A partner list as a counted source. -/
def partnerSource (p : PartnerSrc) : Source :=
  ⟨(p.entries.getLast?.map (·.dist)).getD 0xFFFE, p.tie, p.filterPass⟩

/-- The accepted list of the lowest member among some. -/
def lowest (ps : List PartnerSrc) : Option PartnerSrc :=
  ps.foldl (fun (m : Option PartnerSrc) p => match m with
    | none => some p
    | some b => if p.member < b.member then some p else some b) none

/-- A shard is present: a complete source of it was accepted (R132). -/
def shardPresent (own : Nat) (complete : Bool) (ps : List PartnerSrc) (sh : Nat) : Bool :=
  (sh = own && complete) || ps.any fun p => p.shard = sh && !p.incomplete

/-- The counted source of a shard (R128). -/
def countedSource (own : Nat) (complete : Bool) (ls : List LaneList) (ps : List PartnerSrc) (sh : Nat) : List Source :=
  let mine := ps.filter fun p => p.shard = sh
  if shardPresent own complete ps sh then
    if sh = own && complete then laneSources ls
    else ((lowest (mine.filter fun p => !p.incomplete)).map partnerSource).toList
  else if sh = own then laneSources ls
  else ((lowest mine).map partnerSource).toList

/-- What the merge of one query needs (R131). -/
structure MergeIn where
  k : Nat
  terms : Nat
  own : Nat
  member : Nat
  shards : List Nat
  complete : Bool
  lanes : List LaneList
  partners : List PartnerSrc
  trimmed : Bool := false
  sweepNo : Nat := 0
  start : Time := 0
  version : Nat := 0
  deriving DecidableEq, Repr

/-- PASSAGE_ID of the K-th returned entry, which may be a sentinel (R127). -/
def kthId (k : Nat) (ret : List ListEntry) : Nat := if ret.length < k then 2 ^ 64 - 1 else (ret.getLast?.map (·.id)).getD 0

/-- SATURATED (R129). -/
def saturatedOf (m : MergeIn) (ret : List ListEntry) (dK : Nat) : Bool :=
  m.partners.any (·.saturated) ||
  (decide (256 < m.k) && m.lanes.any fun l =>
    l.clipped && (l.entries.all fun e => ret.any fun x => x.id = passageId m.own e.2) &&
      match l.entries.getLast? with
      | none => false
      | some e => e.1 < dK || (e.1 = dK && l.overCount ≠ 0 && passageId m.own e.2 < kthId m.k ret))

/-- The merge of one query (R127..R131). -/
def mergeQuery (m : MergeIn) : RetrResult :=
  let all := laneEntries m.own m.member m.lanes ++ m.partners.flatMap (·.entries)
  let (kept, dup, mism) := dedup (sortBy byId all)
  let sorted := sortBy byDist kept
  let ret := sorted.take m.k
  let dK := (ret.getLast?.map (·.dist)).getD 0xFFFF
  let srcs := m.shards.flatMap (countedSource m.own m.complete m.lanes m.partners)
  let missing := (m.shards.filter fun sh => !shardPresent m.own m.complete m.partners sh).length
  let tie := ((sorted.drop m.k).filter fun e => e.dist = dK).length
    + ((srcs.filter fun c => c.last = dK).map (·.tie)).sum
  { sweepNo := m.sweepNo, start := m.start, filterPass := (srcs.map (·.pass)).sum, tie := tie, dup := dup, k := m.k
    valid := ret.length, dK := dK, version := m.version, missing := missing
    sources := m.lanes.length + m.partners.length, mismatch := mism
    status := if missing ≠ 0 then .partDone else if ret.length < m.k then (if m.terms ≠ 0 then .filterShort else .shortList)
      else .done
    saturated := saturatedOf m ret dK, filtered := m.terms ≠ 0, trimmed := m.trimmed, entries := ret }

/-! ### Result record (R133) -/

/-- A count written in `w` bits: all ones when it exceeds them. -/
def satField (w n : Nat) : Nat := min n (2 ^ w - 1)

/-- An entry of R126 as a number. -/
def ListEntry.encode (e : ListEntry) : Nat := e.id % 2 ^ 64 * 2 ^ 64 + e.dist % 2 ^ 16 * 2 ^ 48 + e.lane % 2 ^ 32 * 2 ^ 16

/-- The sentinel entry (R127): every bit 1 but the reserved ones. -/
def sentinel : Nat := 2 ^ 128 - 2 ^ 16

/-- The header of a result (R133). -/
def RetrResult.header (r : RetrResult) (tag : Nat) : Nat :=
  r.sweepNo % 2 ^ 64 * 2 ^ 448 + r.start % 2 ^ 64 * 2 ^ 384 + r.filterPass % 2 ^ 64 * 2 ^ 320 + satField 32 r.tie * 2 ^ 288
    + satField 32 r.dup * 2 ^ 256 + r.k * 2 ^ 240 + r.valid * 2 ^ 224 + r.dK * 2 ^ 208 + r.version * 2 ^ 192
    + satField 16 r.missing * 2 ^ 176 + satField 16 r.sources * 2 ^ 160 + satField 16 r.mismatch * 2 ^ 144
    + statusCode r.status * 2 ^ 136 + r.saturated.toNat * 2 ^ 132 + (decide (r.valid < r.k)).toNat * 2 ^ 131
    + r.filtered.toNat * 2 ^ 130 + (decide (0 < r.missing)).toNat * 2 ^ 129 + r.trimmed.toNat * 2 ^ 128 + tag % 2 ^ 64 * 2 ^ 64

/-- A retrieval result as bytes: header and K entries (R133). -/
def RetrResult.bytes (r : RetrResult) (tag : Nat) : List Byte :=
  leBytes 64 (r.header tag) ++ (r.entries.flatMap fun e => leBytes 16 e.encode)
    ++ (List.replicate (r.k - r.entries.length) (leBytes 16 sentinel)).flatten

/-! ### Bounds of a sweep (R125), in ns, each rounded up to a whole µs -/

/-- ns rounded up to a whole µs from a quotient of ns. -/
def ceilUs (num den : Nat) : Nat := ceilDiv num (den * 1000) * 1000

/-- Size class of a slate (R120). -/
def sizeClass (q : Nat) : Nat := if q ≤ 64 then 64 else if q ≤ 128 then 128 else 256

/-- T_stream: store bytes at B_sweep GB/s. -/
def tStream (v bSweep : Nat) : Nat := ceilUs v (max 1 bSweep)

/-- T_cmp: `n` records of `l` bits at a size class (1.6 handshakes per ns). -/
def tCmp (n l qc : Nat) : Nat := ceilUs (n * l * qc * 10) (4096 * 256 * 16)

/-- T_feed. -/
def tFeed (v bSweep n l qc : Nat) : Nat := max (tStream v bSweep) (tCmp n l qc)

/-- T_ins of a slate of `q` queries with `m` lists per query in the busiest region. -/
def tIns (m q l : Nat) : Nat := ceilUs (m * q * (l + 1) * 10) 16

/-- T_mrg: 67.68 µs rounded up. -/
def tMrg : Nat := 68000

end Sys2Proof.Machine
end

