-- ==== Sys2Proof/Machine/Arith.lean ====
section
/-!
DEFINITION. Number formats and arithmetic of the cells: FP32 and BF16 (R65, R74, R77, R79), MX elements and exact
accumulation (R65..R76), quantization (R76), pooling runs (R80).
-/
namespace Sys2Proof.Machine

/-! ### Binary floating point -/

/-- A floating-point value: `fin neg m e` is `(-1)^neg * m * 2^e`. -/
inductive FVal where
  | nan
  | inf (neg : Bool)
  | fin (neg : Bool) (m : Nat) (e : Int)
  deriving DecidableEq, Repr

/-- A binary format: mantissa bits and exponent bits (R65). -/
structure FFmt where
  mb : Nat
  eb : Nat
  deriving DecidableEq, Repr

def fp32 : FFmt := ⟨23, 8⟩
def bf16 : FFmt := ⟨7, 8⟩

/-- Exponent bias. -/
def FFmt.bias (f : FFmt) : Nat := 2 ^ (f.eb - 1) - 1

/-- Exponent of the smallest subnormal. -/
def FFmt.emin (f : FFmt) : Int := 1 - (f.bias : Int) - f.mb

/-- Value of a code in a format with Inf and NaN of IEEE 754 (R65). -/
def decodeF (f : FFmt) (w : Nat) : FVal :=
  let frac := w % 2 ^ f.mb
  let ex := w / 2 ^ f.mb % 2 ^ f.eb
  let neg := w / 2 ^ (f.mb + f.eb) % 2 = 1
  if ex = 2 ^ f.eb - 1 then (if frac = 0 then .inf neg else .nan)
  else if ex = 0 then .fin neg frac f.emin
  else .fin neg (2 ^ f.mb + frac) (f.emin + (ex - 1 : Nat))

/-- `m * 2^e` divided by `2^l`, rounded to nearest even. -/
def rne (m : Nat) (e l : Int) : Nat :=
  if l ≤ e then m * 2 ^ (e - l).toNat
  else
    let sh := (l - e).toNat
    let q := m / 2 ^ sh
    let r := m % 2 ^ sh
    let half := 2 ^ (sh - 1)
    if half < r || (r = half && q % 2 = 1) then q + 1 else q

/-- Code of the canonical NaN (R75). -/
def nanCode (f : FFmt) : Nat := (2 ^ f.eb - 1) * 2 ^ f.mb + 2 ^ (f.mb - 1)
/-- Code of an infinity. -/
def infCode (f : FFmt) (neg : Bool) : Nat := neg.toNat * 2 ^ (f.mb + f.eb) + (2 ^ f.eb - 1) * 2 ^ f.mb
/-- Code of a largest finite value. -/
def maxCode (f : FFmt) (neg : Bool) : Nat := infCode f neg - 1

/-- Rounds `m * 2^e` to nearest even; the flag tells a finite overflow, which gives the largest finite value in mode SAT and
an infinity otherwise (R74). -/
def roundF (f : FFmt) (sat neg : Bool) (m : Nat) (e : Int) : Nat × Bool :=
  let sign := neg.toNat * 2 ^ (f.mb + f.eb)
  if m = 0 then (sign, false) else
  let l := max f.emin (e + Nat.log2 m - f.mb)
  let q := rne m e l
  let (q, l) := if q = 2 ^ (f.mb + 1) then (2 ^ f.mb, l + 1) else (q, l)
  if q < 2 ^ f.mb then (sign + q, false)
  else
    let ex := (l - f.emin).toNat + 1
    if 2 ^ f.eb - 1 ≤ ex then (if sat then maxCode f neg else infCode f neg, true)
    else (sign + ex * 2 ^ f.mb + (q - 2 ^ f.mb), false)

/-- Code of a value, rounded to nearest even, overflow to infinity. -/
def encodeF (f : FFmt) (v : FVal) : Nat :=
  match v with
  | .nan => nanCode f
  | .inf n => infCode f n
  | .fin n m e => (roundF f false n m e).1

/-- The signed integer `m` of a finite value at exponent `l ≤ e`. -/
def atExp (n : Bool) (m : Nat) (e l : Int) : Int :=
  let v : Int := m * 2 ^ (e - l).toNat
  if n then -v else v

/-- Exact sum; an exact zero is -0 only when both are -0 or 0 terms of sign minus (IEEE 754, nearest even). -/
def addV (a b : FVal) : FVal :=
  match a, b with
  | .nan, _ => .nan
  | _, .nan => .nan
  | .inf x, .inf y => if x = y then .inf x else .nan
  | .inf x, _ => .inf x
  | _, .inf y => .inf y
  | .fin x m e, .fin y k g =>
    let l := min e g
    let z := atExp x m e l + atExp y k g l
    if z = 0 then .fin (x && y) 0 l else .fin (z < 0) z.natAbs l

/-- Exact product. -/
def mulV (a b : FVal) : FVal :=
  match a, b with
  | .nan, _ => .nan
  | _, .nan => .nan
  | .inf x, .inf y => .inf (x != y)
  | .inf x, .fin y m _ => if m = 0 then .nan else .inf (x != y)
  | .fin x m _, .inf y => if m = 0 then .nan else .inf (x != y)
  | .fin x m e, .fin y k g => .fin (x != y) (m * k) (e + g)

/-- FP32 value of a word. -/
def f32 (w : F32) : FVal := decodeF fp32 w.toNat
/-- FP32 word of a value. -/
def toF32 (v : FVal) : F32 := BitVec.ofNat 32 (encodeF fp32 v)

/-- FP32 add, multiply, fused multiply-add: correctly rounded (R79). -/
def fAdd (a b : F32) : F32 := toF32 (addV (f32 a) (f32 b))
def fMul (a b : F32) : F32 := toF32 (mulV (f32 a) (f32 b))
def fFma (a b c : F32) : F32 := toF32 (addV (mulV (f32 a) (f32 b)) (f32 c))

/-- The negated word. -/
def fNeg (a : F32) : F32 := a ^^^ 0x80000000#32
/-- FP32 subtraction. -/
def fSub (a b : F32) : F32 := fAdd a (fNeg b)

/-- A word is finite. -/
def fFinite (a : F32) : Bool := a.toNat / 2 ^ 23 % 256 ≠ 255

/-- Order key of a finite or infinite word: -0 and +0 have one key. -/
def fKey (a : F32) : Int := if a.toNat < 2 ^ 31 then a.toNat else -((a.toNat - 2 ^ 31 : Nat) : Int)

/-- Comparisons of words that are not NaN. -/
def fLt (a b : F32) : Bool := fKey a < fKey b
def fLe (a b : F32) : Bool := fKey a ≤ fKey b

/-- A word is NaN. -/
def fNan (a : F32) : Bool := f32 a = .nan

/-- FP32 word of an unsigned integer, nearest even. -/
def fOfNat (n : Nat) : F32 := toF32 (.fin false n 0)

/-! ### Table functions (R79) -/

/-- A free word that stands for a table function's result when it passes a bound, and else the nearest word (R79: not correctly
rounded; log 17). Results that are not finite, or 0, are exact. -/
def freeNear (id : Nat) (x near : F32) (ok : F32 → Bool) : F32 :=
  let y := Config.freeTable id x
  if fFinite near && fKey near ≠ 0 && fFinite y && y.msb = near.msb && ok y then y else near

/-- At most `k` units in the last place apart. -/
def ulpsApart (k : Nat) (a b : F32) : Bool := (fKey a - fKey b).natAbs ≤ k

/-- At most 4 units in the last place, or 2^-22, apart, whichever is larger. -/
def nearApart (a b : F32) : Bool :=
  ulpsApart 4 a b || (match addV (f32 a) (f32 (fNeg b)) with
    | .fin _ m e => m = 0 || (e + Nat.log2 m < -22) || (e + Nat.log2 m = -22 && m = 2 ^ Nat.log2 m)
    | _ => false)

/-- The free word where the manual states no result: the logarithm or the root of a number below 0, or of 0; its NaN is the
canonical one (R75; log 160). -/
def freeResult (id : Nat) (x : F32) : F32 :=
  let y := Config.freeTable id x
  if fNan y then 0x7FC00000#32 else y

/-- 2^(2^-j) in units of 2^-64, j = 1..40. -/
def exp2Table : List Nat := [
  26087635650665564425, 21936999301089678047, 20116317054877281742, 19263451207323153962,
  18850675170876015534, 18647615946650685159, 18546908069882975960, 18496758270674070881,
  18471734244850835106, 18459234930309000272, 18452988445124272033, 18449865995240371898,
  18448304968436414829, 18447524504564044946, 18447134285009651015, 18446939178327825412,
  18446841625760745902, 18446792849670663277, 18446768461673986097, 18446756267687738522,
  18446750170697637486, 18446747122203342655, 18446745597956384162, 18446744835832952145,
  18446744454771247945, 18446744264240398796, 18446744168974974960, 18446744121342263227,
  18446744097525907406, 18446744085617729507, 18446744079663640561, 18446744076686596088,
  18446744075198073852, 18446744074453812734, 18446744074081682175, 18446744073895616895,
  18446744073802584256, 18446744073756067936, 18446744073732809776, 18446744073721180696]

/-- 2^f in units of 2^-64 for a fraction `f` in units of 2^-64. -/
def exp2Frac (f : Nat) : Nat :=
  (exp2Table.zipIdx).foldl (fun a p => if f.testBit (63 - p.2) then a * p.1 / 2 ^ 64 else a) (2 ^ 64)

/-- 2^x rounded to FP32. -/
def exp2Near (x : F32) : F32 :=
  match f32 x with
  | .nan => 0x7FC00000#32
  | .inf n => if n then 0#32 else 0x7F800000#32
  | .fin n m e =>
    if fKey x ≥ 0x43000000 then 0x7F800000#32
    else if fKey x ≤ -0x43170000 then 0#32
    else
      let z : Int := if 0 ≤ e + 64 then (m * 2 ^ (e + 64).toNat : Nat) else (m / 2 ^ (-(e + 64)).toNat : Nat)
      let z : Int := if n then -z else z
      let i := z / 2 ^ 64
      let f := (z % 2 ^ 64).toNat
      toF32 (.fin false (exp2Frac f) (i - 64))

/-- exp2 of the vector lane: within 2 units in the last place (R79). -/
def fExp2 (x : F32) : F32 := freeNear 0 x (exp2Near x) (ulpsApart 2 (exp2Near x))

/-- 1/x rounded to FP32. -/
def recipNear (x : F32) : F32 :=
  match f32 x with
  | .nan => 0x7FC00000#32
  | .inf n => if n then 0x80000000#32 else 0#32
  | .fin n m e =>
    if m = 0 then (if n then 0xFF800000#32 else 0x7F800000#32)
    else
      let q := 2 ^ 80 / m
      let st := if 2 ^ 80 % m = 0 then 0 else 1
      toF32 (.fin n (2 * q + st) (-81 - e))

/-- reciprocal of the vector lane: within 1 unit in the last place (R79). -/
def fRecip (x : F32) : F32 := freeNear 1 x (recipNear x) (ulpsApart 1 (recipNear x))

/-- Fraction bits of log2 of a mantissa in units of 2^-64, most significant first. -/
def log2Frac : Nat → Nat → Nat → Nat
  | 0, _, r => r
  | n + 1, v, r =>
    let w := v * v / 2 ^ 64
    if 2 ^ 65 ≤ w then log2Frac n (w / 2) (2 * r + 1) else log2Frac n w (2 * r)

/-- log2 of a positive number rounded to FP32. -/
def log2Near (m : Nat) (e : Int) : F32 :=
  let k := Nat.log2 m
  let z : Int := (e + k) * 2 ^ 64 + log2Frac 64 (m * 2 ^ 64 / 2 ^ k) 0
  toF32 (.fin (z < 0) z.natAbs (-64))

/-- log2 of the vector lane: within 2 units in the last place (R79). -/
def fLog2 (x : F32) : F32 :=
  match f32 x with
  | .nan => 0x7FC00000#32
  | .inf n => if n then freeResult 2 x else 0x7F800000#32
  | .fin n m e => if n || m = 0 then freeResult 2 x else freeNear 2 x (log2Near m e) (ulpsApart 2 (log2Near m e))

/-- Integer square root of a number below 4^n, rounded down. -/
def isqrt : Nat → Nat → Nat → Nat
  | 0, _, r => r
  | n + 1, v, r => if (r + 2 ^ n) * (r + 2 ^ n) ≤ v then isqrt n v (r + 2 ^ n) else isqrt n v r

/-- 1/sqrt of a positive number rounded to FP32. -/
def rsqrtNear (m : Nat) (e : Int) : F32 :=
  let odd := e % 2 ≠ 0
  let m := if odd then 2 * m else m
  let e := if odd then e - 1 else e
  toF32 (.fin false (2 * isqrt 81 (2 ^ 160 / m) 0 + 1) (-81 - e / 2))

/-- rsqrt of the vector lane: within 1 unit in the last place (R79). -/
def fRsqrt (x : F32) : F32 :=
  match f32 x with
  | .nan => 0x7FC00000#32
  | .inf n => if n then freeResult 3 x else 0#32
  | .fin n m e => if n || m = 0 then freeResult 3 x else freeNear 3 x (rsqrtNear m e) (ulpsApart 1 (rsqrtNear m e))

/-- e^-a for `a` in units of 2^-64, in the same units. -/
def expNeg (a : Nat) : Nat :=
  let y := a * 26613026195688644984 / 2 ^ 64
  let i := ceilDiv y (2 ^ 64)
  if 128 < i then 0 else exp2Frac (i * 2 ^ 64 - y) / 2 ^ i

/-- The magnitude of a finite number in units of 2^-64. -/
def fix64 (m : Nat) (e : Int) : Nat := if 0 ≤ e + 64 then m * 2 ^ (e + 64).toNat else m / 2 ^ (-(e + 64)).toNat

/-- 1 / (1 + e^-x) in units of 2^-64. -/
def sigmoid64 (neg : Bool) (a : Nat) : Nat :=
  let u := expNeg a
  if neg then u * 2 ^ 64 / (2 ^ 64 + u) else 2 ^ 128 / (2 ^ 64 + u)

/-- The normal distribution function in units of 2^-64, by its series below 8 and its limit beyond. -/
def normal64 (neg : Bool) (a : Nat) : Nat :=
  if 8 * 2 ^ 64 ≤ a then (if neg then 0 else 2 ^ 64)
  else
    let w : Int := a * a / 2
    let r := (List.range 128).foldl (fun (s : Int × Int) n =>
      (s.1 + s.2 / (2 * n + 1 : Nat), -(s.2 * w / 2 ^ 128) / (n + 1 : Nat))) ((0 : Int), (2 ^ 128 : Int))
    let h : Int := (a : Int) * r.1 / 2 ^ 64 * 135753023439836232162591007175785461951 / 2 ^ 192
    ((if neg then 2 ^ 63 - h else 2 ^ 63 + h).toNat)

/-- tanh, sigmoid, SiLU and GELU of the vector lane: within 4 units in the last place or 2^-22 (R79). -/
def fTanh (x : F32) : F32 :=
  match f32 x with
  | .nan => 0x7FC00000#32
  | .inf n => if n then 0xBF800000#32 else 0x3F800000#32
  | .fin n m e =>
    let u := expNeg (2 * fix64 m e)
    let near := toF32 (.fin n ((2 ^ 64 - u) * 2 ^ 64 / (2 ^ 64 + u)) (-64))
    freeNear 4 x near (nearApart near)

def fSigmoid (x : F32) : F32 :=
  match f32 x with
  | .nan => 0x7FC00000#32
  | .inf n => if n then 0#32 else 0x3F800000#32
  | .fin n m e =>
    let near := toF32 (.fin false (sigmoid64 n (fix64 m e)) (-64))
    freeNear 5 x near (nearApart near)

def fSilu (x : F32) : F32 :=
  match f32 x with
  | .nan => 0x7FC00000#32
  | .inf n => if n then freeResult 6 x else 0x7F800000#32
  | .fin n m e =>
    let near := toF32 (.fin n (m * sigmoid64 n (fix64 m e)) (e - 64))
    freeNear 6 x near (nearApart near)

def fGelu (x : F32) : F32 :=
  match f32 x with
  | .nan => 0x7FC00000#32
  | .inf n => if n then freeResult 7 x else 0x7F800000#32
  | .fin n m e =>
    let near := toF32 (.fin n (m * normal64 n (fix64 m e)) (e - 64))
    freeNear 7 x near (nearApart near)

/-- FP32 minimum and maximum. Between equal zeros, and with a NaN, the manual states no result: one of what IEEE 754 editions give
is free (log 161). -/
def fPick (max : Bool) (a b : F32) : F32 :=
  let free := (Config.freePick a b).getLsbD 0
  if fNan a && fNan b then 0x7FC00000#32
  else if fNan a then (if free then b else 0x7FC00000#32)
  else if fNan b then (if free then a else 0x7FC00000#32)
  else if fKey a = fKey b then (if free then a else b)
  else if (fKey a < fKey b) = (max = true) then b else a

/-- A comparison as an FP32 number: 1 or +0; with a NaN it does not hold (log 161). -/
def fCompare (c : F32 → F32 → Bool) (a b : F32) : F32 := if !fNan a && !fNan b && c a b then 0x3F800000#32 else 0#32

/-- BF16 arithmetic of the vector lane: correctly rounded (R79). -/
def bf (w : Nat) : FVal := decodeF bf16 w
def bfAdd (a b : Nat) : Nat := encodeF bf16 (addV (bf a) (bf b))
def bfMul (a b : Nat) : Nat := encodeF bf16 (mulV (bf a) (bf b))
def bfFma (a b c : Nat) : Nat := encodeF bf16 (addV (mulV (bf a) (bf b)) (bf c))

/-! ### MX elements and INT8 (R65, R67) -/

/-- Layout of an MX element format: exponent bits, mantissa bits, bias. -/
def elemLayout : ElemFmt → Nat × Nat × Nat
  | .e4m3 => (4, 3, 7) | .e5m2 => (5, 2, 15) | .e3m2 => (3, 2, 3) | .e2m3 => (2, 3, 1) | .e2m1 => (2, 1, 1)
  | .int8 => (0, 7, 0) | .bf16 => (8, 7, 127)

/-- Exponent of the smallest subnormal (the grid g of R69's table). -/
def gridExp (f : ElemFmt) : Int := 1 - ((elemLayout f).2.2 : Int) - (elemLayout f).2.1

/-- Exponent of the largest normal value (R76). -/
def emaxOf : ElemFmt → Int
  | .e4m3 => 8 | .e5m2 => 15 | .e3m2 => 4 | .e2m3 => 2 | .e2m1 => 2 | .int8 => 0 | .bf16 => 127

/-- Magnitude code of the largest finite element. -/
def elemMax : ElemFmt → Nat
  | .e4m3 => 0x7E | .e5m2 => 0x7B | .e3m2 => 0x1F | .e2m3 => 0x1F | .e2m1 => 0x7 | .int8 => 127 | .bf16 => 0x7F7F

/-- An element as the accumulator sees it: NaN, infinite, or an integer on the format's grid. -/
inductive Elem where
  | nan
  | inf (neg : Bool)
  | int (z : Int)
  deriving DecidableEq, Repr

/-- Element of a code (R65). -/
def elemOf (f : ElemFmt) (w : Nat) : Elem :=
  match f with
  | .int8 => .int (if w < 128 then w else (w : Int) - 256)
  | _ =>
    let (eb, mb, _) := elemLayout f
    let m := w % 2 ^ mb
    let ex := w / 2 ^ mb % 2 ^ eb
    let neg := w / 2 ^ (mb + eb) % 2 = 1
    if f = .e4m3 && ex = 15 && m = 7 then .nan
    else if f = .e5m2 && ex = 31 then (if m = 0 then .inf neg else .nan)
    else
      let v : Int := if ex = 0 then m else ((2 ^ mb + m) * 2 ^ (ex - 1) : Nat)
      .int (if neg then -v else v)

/-! ### Exact accumulation (R69..R75) -/

/-- Product of two elements inside a term (R71). An Inf times an Inf, which R71 does not name, is an Inf of the product's sign (DESIGN
CHOICE, log 159). -/
def mulElem (a b : Elem) : Elem :=
  match a, b with
  | .nan, _ => .nan
  | _, .nan => .nan
  | .inf x, .inf y => .inf (x != y)
  | .inf x, .int z => if z = 0 then .nan else .inf (x != (z < 0))
  | .int z, .inf y => if z = 0 then .nan else .inf ((z < 0) != y)
  | .int y, .int z => .int (y * z)

/-- The adjusted term of a block sum: units of 2^Q, truncation, clamping (R70). -/
def adjust (s sh : Int) : Int × Bool × Bool :=
  let m := s.natAbs
  let v := if 0 ≤ sh then m * 2 ^ sh.toNat else m / 2 ^ (-sh).toNat
  let low := if 0 ≤ sh then false else m % 2 ^ (-sh).toNat ≠ 0
  let cl := decide (2 ^ 80 ≤ v)
  let v := if cl then 2 ^ 80 - 1 else v
  (if s < 0 then -(v : Int) else v, cl, low)

/-- Counts of R85 that final rounding and quantization add. -/
structure Counts where
  nan : Nat := 0
  inf : Nat := 0
  clamped : Nat := 0
  lowcut : Nat := 0
  saturated : Nat := 0
  deriving DecidableEq, Repr

/-- Sum of two counts. -/
def Counts.add (a b : Counts) : Counts :=
  ⟨a.nan + b.nan, a.inf + b.inf, a.clamped + b.clamped, a.lowcut + b.lowcut, a.saturated + b.saturated⟩

/-- The integer block sum S of elements without NaN or Inf (R70). -/
def blockSum (ps : List Elem) : Int := ps.foldl (fun z p => match p with | .int v => z + v | _ => z) 0

/-- Adds one MX term: scales and elements of a block pair (R67, R70, R71). -/
def addTerm (fa fb : ElemFmt) (q : Int) (a : Acc) (t : Nat × Nat × List Nat × List Nat) : Acc × Counts :=
  let (sa, sb, xs, ys) := t
  let ps := (xs.zip ys).map fun p =>
    if sa = 255 || sb = 255 then Elem.nan else mulElem (elemOf fa p.1) (elemOf fb p.2)
  let nan := ps.any fun p => p = .nan
  let pi := ps.any fun p => p = .inf false
  let ni := ps.any fun p => p = .inf true
  if nan || pi || ni then ({ a with nan := a.nan || nan, pinf := a.pinf || pi, ninf := a.ninf || ni }, {})
  else
    let (v, cl, low) := adjust (blockSum ps) ((sa : Int) - 127 + ((sb : Int) - 127) + gridExp fa + gridExp fb - q)
    ({ a with acc := a.acc + v, clamped := a.clamped || cl, lowcut := a.lowcut || low },
      { clamped := cl.toNat, lowcut := low.toNat })

/-- Adds one INT8 term: every term is exact (R69, R70). -/
def addInt8 (a : Acc) (xs ys : List Nat) : Acc :=
  { a with acc := a.acc + blockSum ((xs.zip ys).map fun p => mulElem (elemOf .int8 p.1) (elemOf .int8 p.2)) }

/-- Final rounding to FP32 or BF16, flags overriding (R74, R75). -/
def finalF (f : FFmt) (sat : Bool) (q : Int) (a : Acc) : Nat × Counts :=
  if a.nan || (a.pinf && a.ninf) then (nanCode f, { nan := 1 })
  else if a.pinf then (infCode f false, { inf := 1 })
  else if a.ninf then (infCode f true, { inf := 1 })
  else
    let (w, ov) := roundF f sat (a.acc < 0) a.acc.natAbs q
    (w, { inf := if ov && !sat then 1 else 0, saturated := if ov && sat then 1 else 0 })

/-- Final rounding to INT32 (R74). -/
def finalI (z : Int) : Nat × Counts :=
  let lo : Int := -2 ^ 31
  let hi : Int := 2 ^ 31 - 1
  let v := if z < lo then lo else if hi < z then hi else z
  ((v % 2 ^ 32).toNat, { saturated := if v = z then 0 else 1 })

/-- Final rounding by the plan's output format; INT32 is for INT8 operations only (R74, R75). -/
def finalWord (int8 : Bool) (out : OutFmt) (sat : Bool) (q : Int) (a : Acc) : Nat × Counts :=
  match out with
  | .fp32 => finalF fp32 sat q a
  | .bf16 => finalF bf16 sat q a
  | .int32 => if int8 then finalI a.acc else (0, {})

/-- A spilled partial (R72). -/
def partialBits (q : Int) (a : Acc) : BitVec 128 :=
  BitVec.ofNat 128 (a.nan.toNat * 2 ^ 127 + a.pinf.toNat * 2 ^ 126 + a.ninf.toNat * 2 ^ 125
    + a.clamped.toNat * 2 ^ 124 + a.lowcut.toNat * 2 ^ 123
    + (q % 2 ^ 16).toNat * 2 ^ 96 + (a.acc % 2 ^ 96).toNat)

/-- The anchor of a partial. -/
def partialQ (p : BitVec 128) : Int :=
  let q := bits p.toNat 111 96
  if q < 2 ^ 15 then (q : Int) else (q : Int) - 2 ^ 16

/-- The sum and the flags of a partial. -/
def partialAcc (p : BitVec 128) : Acc :=
  let v := bits p.toNat 95 0
  { acc := if v < 2 ^ 95 then (v : Int) else (v : Int) - 2 ^ 96
    nan := bits p.toNat 127 127 = 1, pinf := bits p.toNat 126 126 = 1, ninf := bits p.toNat 125 125 = 1
    clamped := bits p.toNat 124 124 = 1, lowcut := bits p.toNat 123 123 = 1 }

/-- Integer addition, flags by OR (R71, R73). -/
def Acc.add (a b : Acc) : Acc :=
  ⟨a.acc + b.acc, a.nan || b.nan, a.pinf || b.pinf, a.ninf || b.ninf, a.clamped || b.clamped, a.lowcut || b.lowcut⟩

/-- Partials of one output: equal Q, reserved fields 0 (R73). -/
def partialsOk (ps : List (BitVec 128)) : Bool :=
  match ps with
  | [] => true
  | p :: _ => ps.all fun x => bits x.toNat 111 96 = bits p.toNat 111 96 && bits x.toNat 122 112 = 0

/-- Adds partials of one output; none: unequal Q or a reserved field that is not 0 (R73). -/
def reduceParts (ps : List (BitVec 128)) : Option (Int × Acc) :=
  match ps with
  | [] => none
  | p :: _ => if partialsOk ps then some (partialQ p, ps.foldl (fun a x => a.add (partialAcc x)) {}) else none

/-! ### Residues (R83) -/

/-- The residue of a number modulo 255, in 0..254. -/
def residue (v : Int) : Nat := (v % 255).toNat

/-- The residue of the adjusted term: from that of S by the shift, or from the term itself where it was cut or clamped. -/
def termResidue (sum sh : Int) : Nat :=
  let (v, cl, low) := adjust sum sh
  if cl || low then residue v else residue sum * 2 ^ (sh % 8).toNat % 255

/-- What the checker compares agrees. -/
def residueOk : ResidueCheck → Bool
  | .block xs ys sum => ((xs.zip ys).map fun p => residue p.1 * residue p.2).sum % 255 = residue sum
  | .add old term new => (residue old + residue term) % 255 = residue new
  | .reduce parts sum => (parts.map residue).sum % 255 = residue sum
  | .product a b p => residue a * residue b % 255 = residue p
  | .node a b sum => (residue a + residue b) % 255 = residue sum

/-! ### BF16 path (R77) -/

/-- One level of the adder tree: pairs (0,1), (2,3), ... -/
def pairSums : List F32 → List F32
  | a :: b :: r => fAdd a b :: pairSums r
  | l => l

/-- The fixed binary tree over the products of one handshake. -/
def treeSum : Nat → List F32 → F32
  | 0, l => l.headD 0
  | n + 1, l => match l with
    | [] => 0
    | [a] => a
    | _ => treeSum n (pairSums l)

/-- One handshake of the BF16 path on one entry: products, tree, entry. An entry starts at +0 (DESIGN CHOICE, log 162). -/
def bf16Add (acc : F32) (xs ys : List Nat) : F32 :=
  fAdd acc (treeSum 8 ((xs.zip ys).map fun p => toF32 (mulV (bf p.1) (bf p.2))))

/-- FP32 sum of the vector lane: the lane tree over 32 elements, then the chunks in ascending order (R77). -/
def laneSum (xs : List F32) : F32 := (chunks 32 xs.length xs).foldl (fun a c => fAdd a (treeSum 8 c)) 0

/-- FP32 maximum of the vector lane, in the same order. -/
def laneMax (xs : List F32) : F32 :=
  match xs with
  | [] => 0
  | x :: r => r.foldl (fPick true) x

/-- BF16-path partials combined in ascending order of the K-range they cover, whatever order they arrive in (R77). -/
def combineParts (ps : List (Nat × F32)) : F32 :=
  match sortBy (fun (a b : Nat × F32) => a.1 ≤ b.1) ps with
  | [] => 0
  | p :: r => r.foldl (fun a x => fAdd a x.2) p.2

/-! ### Quantization (R76) -/

/-- Exponent of the largest finite magnitude among values: floor(log2(amax)), none when amax is 0. -/
def amaxExp (vs : List FVal) : Option Int :=
  vs.foldl (fun o v => match v with
    | .fin _ m e => if m = 0 then o else
      let k := e + Nat.log2 m
      match o with
      | none => some k
      | some b => some (max b k)
    | _ => o) none

/-- One element rounded to nearest even on its format's grid, saturating (R76). A NaN becomes the NaN element of sign 0 with the
code 0x7F or 0x7E (DESIGN CHOICE, log 163). -/
def quantElem (f : ElemFmt) (sat : Bool) (scaleExp : Int) (v : FVal) : Nat × Nat :=
  let (eb, mb, _) := elemLayout f
  let sgn (n : Bool) : Nat := n.toNat * 2 ^ (eb + mb)
  match v with
  | .nan => (if f = .e4m3 then 0x7F else if f = .e5m2 then 0x7E else 0, 0)
  | .inf n => if f = .e5m2 then (sgn n + 0x7C, 0) else (sgn n + elemMax f, 0)
  | .fin n m e =>
    if m = 0 then (sgn n, 0) else
    let e := e - scaleExp
    let l := max (gridExp f) (e + Nat.log2 m - mb)
    let q := rne m e l
    let (q, l) := if q = 2 ^ (mb + 1) then (2 ^ mb, l + 1) else (q, l)
    let code := if q < 2 ^ mb then q else ((l - gridExp f).toNat + 1) * 2 ^ mb + (q - 2 ^ mb)
    if elemMax f < code then
      (if f = .e5m2 && !sat then sgn n + 0x7C else sgn n + elemMax f, if f = .e5m2 && !sat then 0 else 1)
    else (sgn n + code, 0)

/-- A block quantized: scale code, element codes, finite values saturated (R76). A scale exponent outside -127..127 is clamped to
it (DESIGN CHOICE, log 164). -/
def quantBlock (f : ElemFmt) (sat : Bool) (xs : List F32) : Nat × List Nat × Nat :=
  let vs := xs.map f32
  let sc : Int := match amaxExp vs with
    | none => -127
    | some k => max (-127) (min 127 (k - emaxOf f))
  let es := vs.map (quantElem f sat sc)
  let bad := (f = .e3m2 || f = .e2m3 || f = .e2m1) && vs.any (· = .nan)
  (if bad then 255 else (sc + 127).toNat, es.map (·.1), (es.map (·.2)).sum)

/-! ### Pooling in the cell (R80) -/

/-- FP32 word of a row element: BF16 and INT8 exactly, an MX element times its scale, nearest even. -/
def widen (f : ElemFmt) (scale w : Nat) : F32 :=
  match f with
  | .bf16 => BitVec.ofNat 32 (if decodeF bf16 w = .nan then 0x7FC00000 else w % 2 ^ 16 * 2 ^ 16)
  | .int8 => toF32 (match elemOf .int8 w with | .int z => .fin (z < 0) z.natAbs 0 | _ => .nan)
  | _ =>
    if scale = 255 then 0x7FC00000#32 else
    match elemOf f w with
    | .nan => 0x7FC00000#32
    | .inf n => BitVec.ofNat 32 (infCode fp32 n)
    | .int z => toF32 (.fin (w / 2 ^ ((elemLayout f).1 + (elemLayout f).2.1) % 2 = 1) z.natAbs
        (gridExp f + (scale : Int) - 127))

/-- One run of at most 256 positions: an FMA for each in ascending order, from +0. -/
def poolRun (ps : List (F32 × F32)) : F32 := ps.foldl (fun acc p => fFma p.1 p.2 acc) 0

end Sys2Proof.Machine
end

