-- ==== Sys2Proof/Machine/Ranking.lean ====
section
/-!
DEFINITION. Re-rank, cross-encode, selection, passage fetch, packing and the report (R145..R171): arithmetic over candidates.
-/
namespace Sys2Proof.Machine

/-! ### Rank and pack parameters (R148) -/

def kRrN (w : BitVec 512) : Nat := bits w.toNat 511 496
def kPrefetch (w : BitVec 512) : Nat := bits w.toNat 495 480
def kCeN (w : BitVec 512) : Nat := bits w.toNat 479 472
def kSelMode (w : BitVec 512) : Nat := bits w.toNat 471 464
def kSelMax (w : BitVec 512) : Nat := bits w.toNat 463 456
def kTargets (w : BitVec 512) : Nat := bits w.toNat 455 448
def kSelT (w : BitVec 512) : F32 := BitVec.ofNat 32 (bits w.toNat 447 416)
def kTemp (w : BitVec 512) : F32 := BitVec.ofNat 32 (bits w.toNat 415 384)
def kTemplate (w : BitVec 512) : Nat := bits w.toNat 383 368
def kMinPassage (w : BitVec 512) : Nat := bits w.toNat 367 352
def kBudget (w : BitVec 512) : Nat := bits w.toNat 351 320
def kTarget0 (w : BitVec 512) : Nat := bits w.toNat 319 288
def kTarget1 (w : BitVec 512) : Nat := bits w.toNat 287 256
def kUserKey (w : BitVec 512) : Nat := bits w.toNat 255 192
def kRetReport (w : BitVec 512) : Bool := bits w.toNat 191 191 = 1
def kRetPrompt (w : BitVec 512) : Bool := bits w.toNat 190 190 = 1

/-- A finite word greater than 0. -/
def fPos (a : F32) : Bool := fFinite a && 0 < fKey a

/-- Fields in the ranges of R148. `pmax` is PASSAGE_MAX_TOKENS. A TEMPLATE_ID of 0xFFFF lies outside the range that R161 gives it
(DEDUCED, log 178). -/
def rankFields (w : BitVec 512) (pmax : Nat) : Bool :=
  kRrN w ≤ 512 && kPrefetch w ≤ 512 && kCeN w ≤ 64 && kSelMode w ≤ 2 && 1 ≤ kSelMax w && kSelMax w ≤ 64 && kTargets w ≤ 2
    && (match kSelMode w with
      | 0 => kSelT w = 0#32
      | 1 => fFinite (kSelT w)
      | _ => fPos (kSelT w) && fLe (kSelT w) 0x3F800000#32)
    && (if kCeN w = 0 then kTemp w = 0#32 else fPos (kTemp w))
    && kTemplate w ≠ 0xFFFF && 1 ≤ kMinPassage w && kMinPassage w ≤ pmax && kBudget w ≠ 0xFFFFFFFF
    && (0 < kTargets w || kTarget0 w = 0) && (kTargets w = 2 || kTarget1 w = 0) && bits w.toNat 189 0 = 0

/-- Relations of R149 between RR_N, CE_N, SEL_MAX and K. -/
def rankRelations (w : BitVec 512) (k : Nat) : Bool :=
  kRrN w ≤ k && (kPrefetch w = 0 || 0 < kRrN w)
    && (if 0 < kRrN w then kCeN w ≤ kRrN w else kCeN w ≤ k)
    && (if 0 < kCeN w then kSelMax w ≤ kCeN w else if 0 < kRrN w then kSelMax w ≤ kRrN w else kSelMax w ≤ k)
    && (kSelMode w = 0 || 0 < kCeN w)

/-! ### Query vector and exact scores -/

/-- round to nearest even of an FP32 value, to an integer. -/
def fRound (v : FVal) : Int :=
  match v with
  | .fin n m e => let q := rne m e 0; if n then -(q : Int) else q
  | _ => 0

/-- An element of the query vector (R150). -/
def qElem (scale x : F32) : Int :=
  match f32 (fMul x scale) with
  | .nan => 0
  | .inf n => if n then -127 else 127
  | v => max (-127) (min 127 (fRound v))

/-- The query vector, and its NaN elements (R150). -/
def queryVec (scale : F32) (xs : List F32) : List Int × Nat :=
  (xs.map (qElem scale), (xs.filter fun x => fNan (fMul x scale)).length)

/-- Signed value of an INT8 byte. -/
def int8Val (b : Byte) : Int := b.toInt

/-- The exact score of a vector record (R151). -/
def exactScore (q : List Int) (v : List Byte) : Int := (q.zip v).foldl (fun s p => s + p.1 * int8Val p.2) 0

/-- The vector record of a version for an ordinal is lost: absent, unreadable, header mismatch, LIVE 0 (R145, R154). -/
def vecLost (img : IndexImage) (o : Nat) (lostReads : List Nat) : Bool :=
  lostReads.contains o ||
  match img.vectors.find? fun r => r.ord = o with
  | none => true
  | some r => bits r.header.toNat 127 64 ≠ passageId img.shardId o || bits r.header.toNat 63 48 ≠ img.version
      || bits r.header.toNat 47 32 ≠ img.vecDim || bits r.header.toNat 31 16 ≠ img.headTokens || bits r.header.toNat 0 0 = 0

/-- The header of a present vector record disagrees with what is expected (R154: reported as a fault). -/
def vecMismatch (img : IndexImage) (o : Nat) (lostReads : List Nat) : Bool :=
  !lostReads.contains o &&
  match img.vectors.find? fun r => r.ord = o with
  | none => false
  | some r => bits r.header.toNat 127 64 ≠ passageId img.shardId o || bits r.header.toNat 63 48 ≠ img.version
      || bits r.header.toNat 47 32 ≠ img.vecDim || bits r.header.toNat 31 16 ≠ img.headTokens

/-- Exact score and head tokens of an own-shard candidate (R151). -/
def scoreOf (img : IndexImage) (q : List Int) (o : Nat) : Int × List Nat :=
  match img.vectors.find? fun r => r.ord = o with
  | none => (0, [])
  | some r => (exactScore q r.elems, r.heads.map fun h => bits h.toNat 17 0)

/-- Order after stage 8: score descending, PASSAGE_ID ascending (R151). -/
def byScore (a b : Cand) : Bool :=
  let x := a.score.getD 0
  let y := b.score.getD 0
  y < x || (x = y && a.id ≤ b.id)

/-- Order after stage 9: finite logits descending, then non-finite ones, PASSAGE_ID ascending (R156). -/
def byLogit (a b : Cand) : Bool :=
  let x := a.logit.getD 0
  let y := b.logit.getD 0
  if fFinite x && fFinite y then fLt y x || (fKey x = fKey y && a.id ≤ b.id)
  else if fFinite x then true
  else if fFinite y then false
  else a.id ≤ b.id

/-! ### Masses and selection (R157, R158) -/

/-- Candidates with finite logits, in rank order. -/
def finiteCands (cs : List Cand) : List Cand := cs.filter fun c => match c.logit with
  | some l => fFinite l
  | none => false

/-- Largest of some words. -/
def fMaxOf (l : List F32) : F32 := l.foldl (fun m x => if fLt m x then x else m) (l.headD 0)

/-- e_i of the finite candidates, in rank order (R157). -/
def massTerms (temp : F32) (cs : List Cand) : List F32 :=
  let c := fMul 0x3FB8AA3B#32 (fRecip temp)
  let ls := cs.map fun x => x.logit.getD 0
  let m := fMaxOf ls
  ls.map fun l => fExp2 (fMul (fSub l m) c)

/-- Sequential sum. -/
def fSum (l : List F32) : F32 := l.foldl fAdd 0

/-- Whether each finite candidate is selected by MASS or SCORE_MIN before SEL_MAX, ending at the first that fails. -/
def selectFlags (mode selMax : Nat) (selT z : F32) : List (F32 × F32) → F32 → Nat → List Bool
  | [], _, _ => []
  | (l, e) :: r, pre, n =>
    let ok := n < selMax && (match mode with
      | 0 => true
      | 1 => fLe selT l
      | _ => fLt (fMul pre (fRecip z)) selT)
    if ok then true :: selectFlags mode selMax selT z r (fAdd pre e) (n + 1)
    else false :: r.map fun _ => false

/-- Selection and masses over candidates in rank order (R157, R158): candidates marked, SEL_MASS, LEFT_MASS. -/
def selectCands (w : BitVec 512) (cs : List Cand) : List Cand × F32 × F32 :=
  if kCeN w = 0 then
    ((cs.zipIdx).map fun p => { p.1 with selected := p.2 < kSelMax w }, 0, 0)
  else
    let es := massTerms (kTemp w) (finiteCands cs)
    let z := fSum es
    let fl := selectFlags (kSelMode w) (kSelMax w) (kSelT w) z
      (((finiteCands cs).map fun c => c.logit.getD 0).zip es) 0 0
    let fin := finiteCands cs
    let sel := (fin.zip fl).map fun p => { p.1 with selected := p.2 }
    let others := (cs.filter fun c => !fin.contains c).map fun c => { c with selected := false }
    if fin.isEmpty then (others, 0, 0) else
    let share (b : Bool) := fMul (fSum (((es.zip fl).filter fun p => p.2 = b).map (·.1))) (fRecip z)
    (sel ++ others, share true, share false)

/-! ### Passage fetch (R146, R159) -/

/-- Control tokens of a vocabulary: IDs whose entry is marked control (R175). -/
def isControl (v : VocabImage) (id : Nat) : Bool := bits (v.ids.getD id 0).toNat 63 63 = 1

/-- The passage record of an ordinal is lost (R159). -/
def passageLost (img : IndexImage) (o : Nat) (lostReads : List Nat) : Bool :=
  lostReads.contains o ||
  match img.passages.find? fun r => r.ord = o with
  | none => true
  | some r => bits r.header.toNat 127 64 ≠ passageId img.shardId o || bits r.header.toNat 31 16 ≠ img.version
      || bits r.header.toNat 63 32 = 0 || img.passageMax < bits r.header.toNat 63 32

/-- Its header disagrees with what is expected (R159). -/
def passageMismatch (img : IndexImage) (o : Nat) (lostReads : List Nat) : Bool :=
  !lostReads.contains o &&
  match img.passages.find? fun r => r.ord = o with
  | none => false
  | some r => bits r.header.toNat 127 64 ≠ passageId img.shardId o || bits r.header.toNat 31 16 ≠ img.version

/-- Tokens of a passage record. -/
def passageTokens (img : IndexImage) (o : Nat) : List Nat :=
  match img.passages.find? fun r => r.ord = o with
  | none => []
  | some r => (r.tokens.take (bits r.header.toNat 63 32)).map fun t => bits t.toNat 17 0

/-- A record is forged: a token is a control token or lies outside the vocabulary (R159). -/
def passageForged (v : VocabImage) (toks : List Nat) : Bool := toks.any fun t => v.tokenCount ≤ t || isControl v t

/-! ### Packing (R161..R163) -/

def segType (d : BitVec 64) : Nat := bits d.toNat 63 60
def segTrunc (d : BitVec 64) : Bool := bits d.toNat 59 59 = 1
def segCount (d : BitVec 64) : Nat := bits d.toNat 47 32
def segPre (d : BitVec 64) : Nat := bits d.toNat 47 40
def segSuf (d : BitVec 64) : Nat := bits d.toNat 39 32
def segOff (d : BitVec 64) : Nat := bits d.toNat 31 0

/-- `n` stored tokens of a template from a byte offset of its body, which need not be a multiple of 4; those that do not lie whole in
the body are not there (DESIGN CHOICE, log 180). -/
def storedTokens (m : TemplateImage) (off n : Nat) : List Nat :=
  let bs := (((m.body.drop (off / 4)).take (n + 1)).flatMap fun t => leBytes 4 t.toNat).drop (off % 4)
  ((chunks 4 n bs).filter fun c => c.length = 4).map fun c => bits (ofLe c) 17 0

/-- Progress of the packing of passages. -/
structure PackSt where
  avail : Nat
  out : List Nat := []
  packed : List Nat := []
  whole : Nat := 0
  trunc : Bool := false
  omitted : Nat := 0
  stopped : Bool := false
  deriving DecidableEq, Repr

/-- One selected passage (R163). -/
def packOne (pre suf : List Nat) (minP : Nat) (p : PackSt) (c : Cand) : PackSt :=
  let w := pre.length + suf.length
  if p.stopped then { p with omitted := p.omitted + 1 }
  else if c.lost || c.forged then { p with omitted := p.omitted + 1 }
  else if w + c.tokens.length ≤ p.avail then
    { p with out := p.out ++ pre ++ c.tokens ++ suf, packed := p.packed ++ [c.id], whole := p.whole + 1,
             avail := p.avail - (w + c.tokens.length) }
  else if w + minP ≤ p.avail then
    { p with out := p.out ++ pre ++ c.tokens.take (p.avail - w) ++ suf, packed := p.packed ++ [c.id], trunc := true,
             avail := 0, stopped := true }
  else { p with omitted := p.omitted + 1, stopped := true }

/-- A packed prompt: tokens, user tokens cut, passage packing (R163). -/
def packPrompt (m : TemplateImage) (budget minP : Nat) (user : List Nat) (sel : List Cand) : List Nat × Nat × PackSt :=
  let avail := budget - m.fixedTok
  let useg := (m.segs.find? fun d => segType d = 2).getD 0
  let cap := min (segCount useg) avail
  let kept := if segTrunc useg then user.drop (user.length - cap) else user.take cap
  let cut := user.length - kept.length
  let pseg := m.segs.find? fun d => segType d = 3
  let ps := match pseg with
    | none => sel.foldl (packOne [] [] minP) { avail := 0, stopped := true }
    | some d => sel.foldl (packOne (storedTokens m (segOff d) (segPre d))
        (storedTokens m (segOff d + 4 * segPre d) (segSuf d)) minP) { avail := avail - kept.length }
  let toks := m.segs.flatMap fun d => match segType d with
    | 2 => kept
    | 3 => ps.out
    | _ => storedTokens m (segOff d) (segCount d)
  (toks, cut, ps)

/-- PACK_LEFT_MASS: the share of the selected passages that were not packed (R157, R163). -/
def packLeftMass (w : BitVec 512) (cs : List Cand) (packed : List Nat) : F32 :=
  if kCeN w = 0 then 0 else
  let fin := finiteCands cs
  let es := massTerms (kTemp w) fin
  if fin.isEmpty then 0 else
  let om := ((fin.zip es).filter fun p => p.1.selected && !packed.contains p.1.id).map (·.2)
  fMul (fSum om) (fRecip (fSum es))

/-! ### Report (R166) -/

/-- The exact score field: 0x8000_0000 when it was not computed (R151). -/
def scoreField (c : Cand) : Nat := match c.score with
  | some z => (z % 2 ^ 32).toNat
  | none => 0x80000000

/-- The report of R166 with its entries. -/
def reportBytes (tag : Nat) (k : Work) : List Byte :=
  let sel := k.cands.filter (·.selected)
  let h := tag % 2 ^ 64 * 2 ^ 448 + k.selMass.toNat * 2 ^ 416 + k.leftMass.toNat * 2 ^ 384 + k.packLeft.toNat * 2 ^ 352
    + k.prompt.length % 2 ^ 32 * 2 ^ 320 + k.rrDone * 2 ^ 304 + k.rrLost * 2 ^ 288 + k.ceDone * 2 ^ 280 + k.nonFinite * 2 ^ 272
    + sel.length * 2 ^ 264 + k.packedWhole * 2 ^ 256 + k.truncated.toNat * 2 ^ 248 + k.omitted * 2 ^ 240
    + k.fetchLost * 2 ^ 232 + k.forged * 2 ^ 224 + (k.result.elim 0 fun r => statusCode r.status) * 2 ^ 216
    + k.partnerStatus * 2 ^ 208 + k.partnerId % 2 ^ 32 * 2 ^ 160 + k.specIssued.length % 2 ^ 16 * 2 ^ 144
    + k.specDiscarded % 2 ^ 16 * 2 ^ 128 + k.userCut % 2 ^ 32 * 2 ^ 96 + k.partnerAnswer * 2 ^ 94
  leBytes 64 h ++ sel.flatMap fun c => leBytes 16 (c.id % 2 ^ 64 * 2 ^ 64 + scoreField c * 2 ^ 32
    + (c.logit.getD 0x7FC00000#32).toNat)

end Sys2Proof.Machine
end

