-- ==== Sys2Proof/Machine/Text.lean ====
section
/-!
DEFINITION. The text engine: vocabularies and tokenization (R174..R185), options and stops (R186, R187), output path
(R188..R193), constraint lists and masks (R194..R198), image checks of MODEL_LOAD (R161, R162, R177, R194, R195).
-/
namespace Sys2Proof.Machine

/-! ### Vocabulary -/

/-- ID table entry (R175). -/
def VocabEntry.len (w : BitVec 64) : Nat := bits w.toNat 61 55

/-- Bytes of a token; a control token contributes none to the output path (R175, R188). -/
def tokenBytes (v : VocabImage) (id : Nat) : List Byte :=
  let w := (v.ids.getD id 0).toNat
  (v.bytes.drop (bits w 21 0)).take (bits w 61 55)

/-- Bytes a committed token contributes to the output path (R188). -/
def outBytes (v : VocabImage) (id : Nat) : List Byte := if isControl v id then [] else tokenBytes v id

/-- Slot of the pair table, 0 when it is not listed. -/
def slotAt (v : VocabImage) (i : Nat) : Nat := match getKey v.slots i with
  | some w => w.toNat
  | none => 0

/-- Home slot of a pair (R176). -/
def homeSlot (p l r : Nat) : Nat := ((l * 0x9E3779B1) ^^^ (r * 0x85EBCA77)) % 2 ^ 32 / 2 ^ (32 - p)

/-- Probes of a lookup from a slot on (R176): merged token and rank. -/
def probe (v : VocabImage) (l r : Nat) : Nat → Nat → Option (Nat × Nat)
  | 0, _ => none
  | n + 1, i =>
    let w := slotAt v i
    if bits w 127 127 = 0 then none
    else if bits w 71 54 = l && bits w 53 36 = r then some (bits w 35 18, bits w 17 0)
    else probe v l r n ((i + 1) % 2 ^ v.pairBits)

/-- Pair lookup (R176). -/
def pairLookup (v : VocabImage) (l r : Nat) : Option (Nat × Nat) := probe v l r v.maxProbe (homeSlot v.pairBits l r)

/-! ### UTF-8 (R179) -/

/-- Continuation bytes a lead byte needs; none for a byte that leads nothing. -/
def contNeed (b : Nat) : Option Nat :=
  if b < 0x80 then some 0 else if 0xC2 ≤ b && b ≤ 0xDF then some 1 else if 0xE0 ≤ b && b ≤ 0xEF then some 2
  else if 0xF0 ≤ b && b ≤ 0xF4 then some 3 else none

/-- A byte is permitted as continuation `i` (0 the first) after a lead byte. -/
def contOk (lead i b : Nat) : Bool :=
  if i = 0 then
    if lead = 0xE0 then 0xA0 ≤ b && b ≤ 0xBF else if lead = 0xED then 0x80 ≤ b && b ≤ 0x9F
    else if lead = 0xF0 then 0x90 ≤ b && b ≤ 0xBF else if lead = 0xF4 then 0x80 ≤ b && b ≤ 0x8F
    else 0x80 ≤ b && b ≤ 0xBF
  else 0x80 ≤ b && b ≤ 0xBF

/-- What the decoder finds at the start of a stream. -/
inductive Utf where
  | char (n : Nat)
  | ill (n : Nat)
  | pending (n : Nat)
  deriving DecidableEq, Repr

/-- Permitted continuation bytes from index `i` on, of `need`: how many, and whether the stream ended. -/
def conts (lead need : Nat) : Nat → List Byte → Nat × Bool
  | i, [] => (i, true)
  | i, b :: r => if i < need then (if contOk lead i b.toNat then conts lead need (i + 1) r else (i, false)) else (i, false)

/-- The first character, ill-formed unit or unfinished sequence of a stream (R179). -/
def utfNext (bs : List Byte) : Utf :=
  match bs with
  | [] => .pending 0
  | b :: r =>
    match contNeed b.toNat with
    | none => .ill 1
    | some need =>
      match conts b.toNat need 0 r with
      | (k, fin) => if k = need then .char (need + 1) else if fin then .pending (k + 1) else .ill (k + 1)

/-- A unit of decoded text: its bytes, and whether they are a well-formed character. -/
abbrev Piece := List Byte × Bool

/-- Decodes a stream; what is pending at the end is left over (R179). -/
def decodeUtf : Nat → List Byte → List Piece × List Byte
  | 0, bs => ([], bs)
  | n + 1, bs =>
    match bs with
    | [] => ([], [])
    | _ => match utfNext bs with
      | .char k => let d := decodeUtf n (bs.drop k); ((bs.take k, true) :: d.1, d.2)
      | .ill k => let d := decodeUtf n (bs.drop k); ((bs.take k, false) :: d.1, d.2)
      | .pending _ => ([], bs)

/-- A whole text: the buffers are one stream; pending bytes at its end are an ill-formed unit (R179, R180). -/
def decodeText (bufs : List (List Byte)) : List Piece :=
  let bs := bufs.flatten
  let d := decodeUtf bs.length bs
  if d.2.isEmpty then d.1 else d.1 ++ [(d.2, false)]

/-! ### Pre-split and merges (R182, R183) -/

/-- Classes of R182: 0 S, 1 N, 2 D, 3 W. -/
def charClass (bs : List Byte) : Nat :=
  match bs with
  | [b] => if b = 0x20 then 0 else if b = 0x0A || b = 0x0D then 1 else if 0x30 ≤ b.toNat && b.toNat ≤ 0x39 then 2 else 3
  | _ => 3

/-- A cut falls before a character, given the classes of the one before, itself and the next (SPLIT_MODE 1). -/
def cutBefore (prev cur : Nat) (next : Option Nat) : Bool :=
  if prev = 0 && (cur = 2 || cur = 3) then false
  else if cur = 0 && (next = some 2 || next = some 3) then true
  else prev ≠ cur

/-- Splits the characters of a run into pieces under SPLIT_MODE and the 1,024-byte limit; `acc` is the open piece. -/
def cutRun (mode : Nat) : Option Nat → List Byte → List (List Byte) → List (List Byte)
  | _, acc, [] => if acc.isEmpty then [] else [acc]
  | prev, acc, c :: r =>
    let cls := charClass c
    let cut := match prev with
      | none => false
      | some p => (mode = 1 && cutBefore p cls (r.head?.map charClass)) || 1024 < acc.length + c.length
    if cut then acc :: cutRun mode (some cls) c r else cutRun mode (some cls) (acc ++ c) r

/-- Index and result of the best merge: the lowest rank, the leftmost of equals (R183). -/
def bestMerge (v : VocabImage) : Nat → List Nat → Option (Nat × Nat × Nat) → Option (Nat × Nat × Nat)
  | i, a :: b :: r, best =>
    let best' := match pairLookup v a b with
      | none => best
      | some (m, rank) => match best with
        | none => some (i, m, rank)
        | some (_, _, rk) => if rank < rk then some (i, m, rank) else best
    bestMerge v (i + 1) (b :: r) best'
  | _, _, best => best

/-- Byte-level merging of one piece (R183); each merge shortens the list, so its length bounds the loop. -/
def mergeLoop (v : VocabImage) : Nat → List Nat → List Nat
  | 0, t => t
  | n + 1, t => match bestMerge v 0 t none with
    | none => t
    | some (i, m, _) => mergeLoop v n (t.take i ++ m :: t.drop (i + 2))

/-- Tokens of one piece. -/
def tokenizePiece (v : VocabImage) (bs : List Byte) : List Nat :=
  mergeLoop v bs.length (bs.map fun b => v.byteMap.getD b.toNat 0)

/-- Tokens of pieces of text: runs of characters between ill-formed units (R181..R183). -/
def tokenizeRuns (v : VocabImage) (inMode : Nat) : List (List Byte) → List Piece → List Nat
  | run, [] => (cutRun v.splitMode none [] run).flatMap (tokenizePiece v)
  | run, (bs, ok) :: r =>
    if ok then tokenizeRuns v inMode (run ++ [bs]) r
    else (cutRun v.splitMode none [] run).flatMap (tokenizePiece v)
      ++ (if inMode = 1 then [v.replId] else bs.map fun b => v.byteMap.getD b.toNat 0)
      ++ tokenizeRuns v inMode [] r

/-- Ill-formed units of a text (R181). -/
def illUnits (ps : List Piece) : Nat := (ps.filter fun p => !p.2).length

/-- Tokenization: tokens, none under REJECT with an ill-formed unit, and the units counted: up to the first under REJECT. -/
def tokenizeText (v : VocabImage) (inMode : Nat) (bufs : List (List Byte)) : Option (List Nat) × Nat :=
  let ps := decodeText bufs
  let n := illUnits ps
  if inMode = 2 && n ≠ 0 then (none, 1) else (some (tokenizeRuns v inMode [] ps), n)

/-! ### Options block (R186, R187) -/

def oInMode (w : BitVec 256) : Nat := bits w.toNat 255 248
def oOutMode (w : BitVec 256) : Nat := bits w.toNat 247 240
def oStopCount (w : BitVec 256) : Nat := bits w.toNat 239 232
def oEmitStop (w : BitVec 256) : Bool := bits w.toNat 231 231 = 1
def oSeed (w : BitVec 256) : Bool := bits w.toNat 230 230 = 1
def oConstraint (w : BitVec 256) : Nat := bits w.toNat 223 208

/-- A stop entry in force is well formed (R187). -/
def stopOk (w : BitVec 320) : Bool :=
  let n := bits w.toNat 319 312
  1 ≤ n && n ≤ 32 && bits w.toNat 311 256 = 0 && bits w.toNat 255 0 / 2 ^ (8 * n) = 0

/-- Fields of the options header, for a generating request (with stops) or the header alone (R186, R187). -/
def optsOk (w : BitVec 256) (stops : List (BitVec 320)) : Bool :=
  oInMode w ≤ 2 && oOutMode w ≤ 1 && oStopCount w ≤ 8 && bits w.toNat 229 224 = 0 && oConstraint w ≠ 0xFFFF
    && bits w.toNat 207 0 = 0 && (stops.take (oStopCount w)).all stopOk && (stops.drop (oStopCount w)).all (· = 0)

/-- Bytes of a stop string (R187). -/
def stopBytes (w : BitVec 320) : List Byte := leBytes (bits w.toNat 319 312) (bits w.toNat 255 0)

/-- Stop strings in force. -/
def stopsOf (w : BitVec 256) (stops : List (BitVec 320)) : List (List Byte) := (stops.take (oStopCount w)).map stopBytes

/-! ### Output path (R188..R192) -/

/-- `b` ends `a`. -/
def endsWith (a b : List Byte) : Bool := b.length ≤ a.length && a.drop (a.length - b.length) = b

/-- The longest stop string that ends the bytes received. -/
def stopAt (stops : List (List Byte)) (bs : List Byte) : Option (List Byte) :=
  stops.foldl (fun m x => if endsWith bs x then (match m with
    | none => some x
    | some y => if y.length < x.length then some x else some y) else m) none

/-- Length of the longest suffix that is a proper prefix of a stop string (R188). -/
def holdLen (stops : List (List Byte)) (bs : List Byte) : Nat :=
  ((List.range 32).filter fun n => n ≤ bs.length && stops.any fun x => n < x.length && endsWith bs (x.take n)).foldl max 0

/-- The UTF-8 stage over new bytes: what is released, what is held, replacement characters emitted (R188). -/
def utfStage (outMode : Nat) (held new : List Byte) : List Byte × List Byte × Nat :=
  let d := decodeUtf (held.length + new.length) (held ++ new)
  (d.1.flatMap fun p => if p.2 || outMode = 0 then p.1 else [0xEF, 0xBF, 0xBD], d.2,
    if outMode = 0 then 0 else illUnits d.1)

/-- The UTF-8 stage flushed at a stream's end (R190). -/
def utfFlush (outMode : Nat) (held : List Byte) : List Byte × Nat :=
  if held.isEmpty then ([], 0) else if outMode = 0 then (held, 0) else ([0xEF, 0xBF, 0xBD], 1)

/-- State of a stream's output path and what a run of it counted. -/
structure OutPath where
  held : List Byte
  utf : List Byte
  released : List Byte := []
  repl : Nat := 0
  discarded : Nat := 0
  fired : Bool := false
  deriving DecidableEq, Repr

/-- Bytes passed to the UTF-8 stage. -/
def OutPath.pass (o : OutPath) (outMode : Nat) (bs : List Byte) : OutPath :=
  let u := utfStage outMode o.utf bs
  { o with utf := u.2.1, released := o.released ++ u.1, repl := o.repl + u.2.2 }

/-- The UTF-8 stage flushed. -/
def OutPath.flush (o : OutPath) (outMode : Nat) : OutPath :=
  let u := utfFlush outMode o.utf
  { o with utf := [], released := o.released ++ u.1, repl := o.repl + u.2 }

/-- One byte through the matcher (R188, R191, R192); after a stop has fired bytes are discarded and counted. -/
def OutPath.byte (stops : List (List Byte)) (outMode : Nat) (emit : Bool) (o : OutPath) (b : Byte) : OutPath :=
  if o.fired then { o with discarded := o.discarded + 1 } else
  let bs := o.held ++ [b]
  match stopAt stops bs with
  | some x =>
    let before := bs.take (bs.length - x.length)
    (({ o with held := [], fired := true }).pass outMode (if emit then bs else before)).flush outMode
  | none =>
    let n := holdLen stops bs
    ({ o with held := bs.drop (bs.length - n) }).pass outMode (bs.take (bs.length - n))

/-- One committed token through the output path. -/
def OutPath.token (v : VocabImage) (stops : List (List Byte)) (outMode : Nat) (emit : Bool) (o : OutPath) (id : Nat) : OutPath :=
  (outBytes v id).foldl (OutPath.byte stops outMode emit) o

/-- The end of a stream for a reason other than a stop string: everything held is released (R190). -/
def OutPath.finish (o : OutPath) (outMode : Nat) : OutPath :=
  (({ o with held := [] }).pass outMode o.held).flush outMode

/-! ### Constraint lists (R194..R197) -/

/-- The mask of a position. -/
inductive Mask where
  | free
  | ban (l : List Nat)
  | force (t : Nat)
  deriving DecidableEq, Repr

def cKind (e : BitVec 576) : Nat := bits e.toNat 575 568
def cLen (e : BitVec 576) : Nat := bits e.toNat 567 560
def cTrig (e : BitVec 576) : Nat := bits e.toNat 559 552
/-- Token `i` of an entry. -/
def cTok (e : BitVec 576) (i : Nat) : Nat := bits e.toNat (32 * i + 17) (32 * i)
/-- Tokens of an entry. -/
def cToks (e : BitVec 576) : List Nat := (List.range (cLen e)).map (cTok e)

/-- The last `n` tokens of a history, when it holds as many. -/
def lastN (g : List Nat) (n : Nat) : Option (List Nat) := if n ≤ g.length then some (g.drop (g.length - n)) else none

/-- Tokens banned after a history (R196). -/
def bannedAfter (es : List (BitVec 576)) (g : List Nat) : List Nat :=
  es.filterMap fun e =>
    if cKind e = 0 && lastN g (cLen e - 1) = some ((cToks e).take (cLen e - 1)) then some (cTok e (cLen e - 1)) else none

/-- The forced token after a history: the largest j decides, then the first entry (R196). -/
def forcedAfter (es : List (BitVec 576)) (g : List Nat) : Option Nat :=
  (es.foldl (fun (m : Option (Nat × Nat)) e =>
    if cKind e = 1 then
      (List.range (cLen e)).foldl (fun m j =>
        if cTrig e ≤ j && 1 ≤ j && lastN g j = some ((cToks e).take j) then
          (match m with
            | none => some (j, cTok e j)
            | some (k, x) => if k < j then some (j, cTok e j) else some (k, x))
        else m) m
    else m) none).map (·.2)

/-- The mask after a history, and whether a forced token is also banned (R196). -/
def maskAfter (es : List (BitVec 576)) (g : List Nat) : Mask × Bool :=
  let b := bannedAfter es g
  match forcedAfter es g with
  | some x => (.force x, b.contains x)
  | none => if b.isEmpty then (.free, false) else (.ban b, false)

/-- The history of a stream (R196). -/
def historyOf (seed : Bool) (prompt toks : List Nat) : List Nat :=
  (if seed then prompt.drop (prompt.length - min 15 prompt.length) else []) ++ toks

/-- The longest suffix of a history that some entry begins with: the trie node that failure links lead to (R197). -/
def matched (es : List (BitVec 576)) : List Nat → List Nat
  | [] => []
  | x :: g => if es.any (fun e => (cToks e).take (x :: g).length = x :: g) then x :: g else matched es g

/-- Automaton state after a history: 0 where no entry's beginning is matched, any other number, freely chosen for each beginning,
where one is (R197, log 18). -/
def autState (es : List (BitVec 576)) (g : List Nat) : BitVec 32 :=
  let p := matched es (g.drop (g.length - 16))
  if p.isEmpty then 0 else BitVec.ofNat 32 (1 + (Config.freeAut (es.map (·.toNat)) p).toNat % (2 ^ 32 - 1))

def clId (h : BitVec 128) : Nat := bits h.toNat 127 112
def clVocab (h : BitVec 128) : Nat := bits h.toNat 111 80
def clCount (h : BitVec 128) : Nat := bits h.toNat 79 64

/-- An entry of a constraint list is in range (R195, R197). -/
def entryOk (tokenCount : Nat) (e : BitVec 576) : Bool :=
  cKind e ≤ 1 && (if cKind e = 0 then 1 else 2) ≤ cLen e && cLen e ≤ 16
    && (if cKind e = 1 then 1 ≤ cTrig e && cTrig e ≤ cLen e - 1 else cTrig e = 0) && bits e.toNat 551 512 = 0
    && ((List.range 16).all fun i =>
      if i < cLen e then bits e.toNat (32 * i + 31) (32 * i + 18) = 0 && cTok e i < tokenCount
      else bits e.toNat (32 * i + 31) (32 * i) = 0)

/-- Some history bans every token and forces none (R197). A history that matters is a prefix of some entry. -/
def bansAll (tokenCount : Nat) (es : List (BitVec 576)) : Bool :=
  (([] : List Nat) :: es.flatMap fun e => (List.range (cLen e)).map fun n => (cToks e).take n).any fun g =>
    (forcedAfter es g).isNone && (List.range tokenCount).all fun x => (bannedAfter es g).contains x

/-- Checks of a constraint list other than residency (R194..R197). -/
def clistCheck (c : ConstraintImage) (vocab : Option VocabImage) : Option Status :=
  match vocab with
  | none => some .stateConflict
  | some v =>
    if clId c.header = 0 || clId c.header = 0xFFFF || clCount c.header = 0 || 4096 < clCount c.header
        || bits c.header.toNat 63 0 ≠ 0 then some .fieldReserved
    else if c.length < 16 + 72 * clCount c.header then some .lengthExceeds
    else
      let es := c.entries.take (clCount c.header)
      if es.all (entryOk v.tokenCount) && !bansAll v.tokenCount es then none else some .fieldReserved

/-! ### Checks of vocabulary and template images -/

/-- An ID table entry is in range (R177). -/
def idOk (v : VocabImage) (w : BitVec 64) : Bool :=
  let n := bits w.toNat 61 55
  n ≤ 64 && (n ≠ 0 || bits w.toNat 63 63 = 1) && (bits w.toNat 62 62 = 0 || n = 1) && bits w.toNat 54 22 = 0
    && bits w.toNat 21 0 + n ≤ v.poolBytes

/-- A slot is in range and its merge is what it says (R177). -/
def slotOk (v : VocabImage) (p : Nat × BitVec 128) : Bool :=
  let w := p.2.toNat
  let l := bits w 71 54
  let r := bits w 53 36
  let m := bits w 35 18
  bits w 127 127 = 0 || (bits w 126 72 = 0 && l < v.tokenCount && r < v.tokenCount && m < v.tokenCount && !isControl v m
    && tokenBytes v m = tokenBytes v l ++ tokenBytes v r
    && (p.1 + 2 ^ v.pairBits - homeSlot v.pairBits l r) % 2 ^ v.pairBits < v.maxProbe)

/-- Elements are pairwise distinct. -/
def distinct (l : List Nat) : Bool :=
  match l with
  | [] => true
  | a :: r => !r.contains a && distinct r

/-- R177: the image is accepted. -/
def vocabOk (v : VocabImage) : Bool :=
  1 ≤ v.vocabId && v.vocabId ≤ 0xFFFFFFFE && 257 ≤ v.tokenCount && v.tokenCount ≤ 262144 && 1 ≤ v.poolBytes
    && v.poolBytes ≤ 4194304 && 10 ≤ v.pairBits && v.pairBits ≤ 19 && 1 ≤ v.maxProbe && v.maxProbe ≤ 8 && v.splitMode ≤ 1
    && v.byteMap.length = 256 && distinct v.byteMap
    && (v.byteMap.zipIdx.all fun p => p.1 < v.tokenCount && tokenBytes v p.1 = [BitVec.ofNat 8 p.2]
        && bits (v.ids.getD p.1 0).toNat 62 62 = 1 && !isControl v p.1)
    && v.replId < v.tokenCount && tokenBytes v v.replId = [0xEF, 0xBF, 0xBD] && !isControl v v.replId
    && v.ids.length = v.tokenCount && v.ids.all (idOk v) && v.slots.all (slotOk v)
    && (let valid := v.slots.filter fun p => bits p.2.toNat 127 127 = 1
      distinct (valid.map fun p => bits p.2.toNat 71 36) && distinct (valid.map fun p => bits p.2.toNat 17 0)
        && valid.length ≤ 3 * 2 ^ (v.pairBits - 2))

/-- Hub SRAM granules of a vocabulary (R178). -/
def vocabGranules (v : VocabImage) : Nat := ceilDiv (8 * v.tokenCount + v.poolBytes + 16 * 2 ^ v.pairBits) 4096

/-- Hub SRAM granules of a template: header, descriptors and stored tokens (R161, log 19). -/
def templateGranules (m : TemplateImage) : Nat := ceilDiv (16 + 8 * m.segs.length + 4 * m.body.length) 4096

/-- Hub SRAM granules of a constraint list (R198, log 19). -/
def clistGranules (c : ConstraintImage) : Nat := ceilDiv c.length 4096

/-- Stored token fields of a segment, as words. -/
def segWords (m : TemplateImage) (d : BitVec 64) : List (BitVec 32) :=
  (m.body.drop (segOff d / 4)).take (match segType d with
    | 2 => 0
    | 3 => segPre d + segSuf d
    | _ => segCount d)

/-- R161, R162: the template image is accepted, given the vocabulary of its tokens. -/
def templateOk (m : TemplateImage) (v : VocabImage) : Bool :=
  m.templateId ≤ 0xFFFE && 1 ≤ m.segCount && m.segCount ≤ 64 && m.segs.length = m.segCount && m.body.length ≤ 16384
    && (m.segs.filter fun d => segType d = 2).length = 1 && (m.segs.filter fun d => segType d = 3).length ≤ 1
    && (m.segs.all fun d => segType d ≤ 3 && bits d.toNat 58 48 = 0 && (segType d = 2 || !segTrunc d)
        && (segType d = 3 || (1 ≤ segCount d && segCount d ≤ 16384))
        && (segType d ≠ 2 || segOff d = 0)
        && (segType d ≠ 0 || (segWords m d).all fun t => !isControl v (bits t.toNat 17 0))
        && (segWords m d).all fun t => bits t.toNat 31 18 = 0 && bits t.toNat 17 0 < v.tokenCount)
    && m.fixedTok = ((m.segs.filter fun d => segType d ≤ 1).map segCount).sum

end Sys2Proof.Machine
end

