-- ==== Sys2Proof/Machine/Sched.lean ====
section
/-!
DEFINITION. Sweep schedule, index versions, sweep bounds and booking (R44, R111, R119..R125, R135..R141), lookup of resident
images and partners.
-/
namespace Sys2Proof.Machine

/-! ### Schedule (R119) -/

/-- S(n) by the segment that holds n. -/
def startIn : List (Nat × Time × Nat) → Nat → Time
  | [], _ => 0
  | (c, at_, p) :: r, n => if c ≤ n then at_ + (n - c) * p else startIn r n

/-- S(n). -/
def State.sweepAt (s : State) (n : Nat) : Time := startIn s.sweep.segs n

/-- Period of a sweep, in ns. -/
def periodIn : List (Nat × Time × Nat) → Nat → Nat
  | [], _ => 0
  | (c, _, p) :: r, n => if c ≤ n then p else periodIn r n

/-- Period of sweep n. -/
def State.periodAt (s : State) (n : Nat) : Nat := periodIn s.sweep.segs n

/-- P_WAIT of sweep n (R143). -/
def State.pWait (s : State) (n : Nat) : Nat :=
  match s.sweep.waits.find? fun w => w.1 ≤ n with
  | some w => w.2
  | none => s.entry 0x300006

/-- Slate lead (R120). -/
def slateLead : Nat := 50000

/-- First sweep of which no start lies behind and that no slate is closed for. -/
def State.openSweep (s : State) : Nat := s.sweep.nextNo + s.sweep.closed.length

/-- First sweep that holds no booking, with none booked after it (R119, R136; log 28). -/
def State.unbooked (s : State) : Nat :=
  let be : List Nat := s.sweep.beQueue.map fun q => max q.sweep s.openSweep
  (s.sweep.bookings.map (·.1) ++ be).foldl (fun m n => max m (n + 1)) s.openSweep

/-- A schedule exists: an index has been published (R119). -/
def State.scheduled (s : State) : Bool := !s.sweep.segs.isEmpty

/-! ### Index versions -/

/-- The version that sweep n streams (R136). -/
def State.imgOf (s : State) (n : Nat) : Option IndexVer :=
  match s.index.pub with
  | some p => match p.switchSweep with
    | some m => if m ≤ n then some ⟨p.vocab, p.img, p.digest, p.imageId, p.bytes⟩ else s.index.live.head?
    | none => s.index.live.head?
  | none => s.index.live.head?

/-- Version a is later than version b (Index versions). -/
def laterVersion (a b : Nat) : Bool :=
  let d := (a + 65536 - b % 65536) % 65536
  1 ≤ d && d ≤ 16384

/-- Shards of the index group of an image (R114). -/
def groupShards (img : IndexImage) : List Nat := if img.members ≤ 1 then [img.shardId] else img.shardMap.eraseDups

/-! ### Regions and lanes -/

/-- Region fenced, alone or with its die. -/
def State.regionFenced (s : State) (r : Nat) : Bool :=
  s.faults.fencedRegions.contains r || s.faults.fencedDies.contains (r / 8)

/-- A region's sweep lane is out, with its region or alone (R380). -/
def State.laneOut (s : State) (r : Nat) : Bool := s.regionFenced r || s.faults.fencedLanes.contains r

/-- Regions whose sweep lane is in service, ascending. -/
def State.regionsIn (s : State) : List Nat := (List.range 32).filter fun r => !s.laneOut r

/-- Records of logical lane l in a store of `count` records (R113). -/
def laneRecords (count l : Nat) : Nat := count / 131072 * 4096 + min 4096 (count % 131072 - 4096 * l)

/-- Chunks of logical lane l. -/
def laneChunks (count l : Nat) : Nat := ceilDiv (laneRecords count l) 4096

/-- Logical lanes whose own lane is out and whose chunks other regions sweep (R139, R141). -/
def State.adoptedLanes (s : State) : List Nat :=
  (List.range 32).filter fun l => s.laneOut l && !s.sweep.unswept.contains l

/-- Records that the region at place i of the regions in service adopts of a lane: chunks i, i + r, … (R139). -/
def adoptedBy (count l r i : Nat) : Nat :=
  let c := laneChunks count l
  let k := if i < c then (c - 1 - i) / r + 1 else 0
  let last := (c - 1) % r = i && c ≠ 0
  if last then (k - 1) * 4096 + (laneRecords count l - (c - 1) * 4096) else k * 4096

/-- N of R125: records that the busiest region in service sweeps. -/
def State.busiest (s : State) (count : Nat) : Nat :=
  let rs := s.regionsIn
  let ad := s.adoptedLanes
  (rs.zipIdx.map fun p => laneRecords count p.1 + (ad.map fun l => adoptedBy count l rs.length p.2).sum).foldl max 0

/-- m of R125. -/
def State.subLists (s : State) : Nat := if s.adoptedLanes.isEmpty then 1 else 2

/-! ### Bounds (R125) -/

/-- Bytes of the records of a version. -/
def storeBytes (img : IndexImage) : Nat := img.recordCount * recordBytes img.format

/-- A channel of a stack is fenced, alone or with its stack. -/
def State.channelFenced (s : State) (stack c : Nat) : Bool :=
  s.faults.fencedStacks.contains stack || s.faults.fencedChannels.contains (stack * 32 + c)

/-- Of protected bytes, which lie evenly on the 768 channels, those on fenced ones: they are reconstructed (R103; log 171). -/
def State.onFenced (s : State) (bytes : Nat) : Nat :=
  ceilDiv (bytes * ((List.range 768).filter fun c => s.channelFenced (c / 32) (c % 32)).length) 768

/-- Bytes that a read of protected bytes loads: five units in place of each one reconstructed (R103; log 171). -/
def State.readLoad (s : State) (bytes : Nat) : Nat := bytes + 4 * s.onFenced bytes

/-- T_feed of a version at a sweep share and a size class, with the read load that reconstruction adds (R103, R125). -/
def State.feedAt (s : State) (img : IndexImage) (bSweep qc : Nat) : Nat :=
  tFeed (s.readLoad (storeBytes img)) bSweep (s.busiest img.recordCount) (sketchBits img.format) qc

/-- T_feed + T_ins at q = 256 (R125, 0x3000:0x04). -/
def State.sweepBound (s : State) (img : IndexImage) (bSweep : Nat) : Nat :=
  s.feedAt img bSweep 256 + tIns s.subLists 256 (sketchBits img.format)

/-- The test of R38. -/
def State.test38 (s : State) (img : IndexImage) (bSweep period : Nat) : Bool :=
  decide (s.sweepBound img bSweep ≤ period) && (decide (0 < bSweep) || img.recordCount = 0)

/-- Sweep and merge stage bounds of a query (R45, R125). -/
def State.sweepStages (s : State) (img : IndexImage) (scope n : Nat) : Nat :=
  s.sweepBound img s.adm.bSweep + tMrg + (if scope = 1 && 1 < img.members then roundUp (s.pWait n) 1000 else 0)

/-! ### Booking (R44, R117, R121) -/

/-- Bookings that a sweep holds. -/
def State.booked (s : State) (n : Nat) : Nat := (s.sweep.bookings.filter fun b => b.1 = n).length

/-- Sweep n may take a query whose sketch-ready bound is `ready`, pinned to a version or not; an LC query within the member's quota,
which is its capacity of slate positions (R44, R121). -/
def State.mayBook (s : State) (ready : Time) (pin : Option Nat) (lc : Bool) (n : Nat) : Bool :=
  match s.imgOf n with
  | none => false
  | some v =>
    decide (ready + slateLead ≤ s.sweepAt n)
      && decide (s.booked n < (if lc then min 256 (quotaOf v.img) else 256))
      && (match pin with
        | none => true
        | some x => v.img.version = x)

/-- The sweep that AP books: the earliest of the next 8 (R44). -/
def State.book (s : State) (ready : Time) (pin : Option Nat) (lc : Bool) : Option Nat :=
  if s.scheduled then
    ((List.range 8).map (s.sweep.nextNo + ·)).find? fun n => s.openSweep ≤ n && s.mayBook ready pin lc n
  else none

/-! ### Resident images -/

/-- Resident model of a MODEL_ID that admissions see. -/
def State.modelId (s : State) (id kind : Nat) : Option ModelRes :=
  s.img.models.find? fun m => m.img.modelId = id && m.img.kind = kind && !m.old

/-- Resident query encoder that carries a rotation (R115). -/
def State.encoder (s : State) (rot : Nat) : Option ModelRes :=
  s.img.models.find? fun m => m.img.kind = 3 && !m.old && m.img.rotations.contains rot

/-- Resident vocabulary. -/
def State.vocab (s : State) (id : Nat) : Option VocabRes := s.img.vocabs.find? fun v => v.img.vocabId = id && !v.old

/-- Resident template. -/
def State.template (s : State) (id : Nat) : Option TemplateRes :=
  s.img.templates.find? fun m => m.img.templateId = id && !m.old

/-- Resident constraint list. -/
def State.clist (s : State) (id : Nat) : Option ClistRes := s.img.clists.find? fun c => clId c.img.header = id && !c.old

/-- The vocabulary copy a request bound, or the current one (R178). -/
def State.vocabOf (s : State) (r : Request) (id : Nat) : Option VocabRes :=
  match getKey r.vocabs id with
  | some c => s.img.vocabs.find? fun v => v.copy_ = c
  | none => s.vocab id

/-- The template copy a request bound (R161). -/
def State.templateOf (s : State) (r : Request) : Option TemplateRes := s.img.templates.find? fun m => m.copy_ = r.template

/-- The constraint list copy a request bound (R198). -/
def State.clistOf (s : State) (r : Request) : Option ClistRes :=
  if r.clist = 0 then none else s.img.clists.find? fun c => c.copy_ = r.clist

/-! ### Partners and time -/

/-- The OPEN session toward a fabric identifier. -/
def State.session (s : State) (id : Nat) : Option Session := s.fab.sessions.find? fun x => x.ident = id && x.state = .opened

/-- The identifier is in the partner membership (R283). -/
def State.partner (s : State) (id : Nat) : Bool := (s.session id).isSome

/-- PATH_NS (R284). -/
def Session.pathNs (x : Session) : Nat := x.paths.foldl max 0 + 2000

/-- The module holds the time base (R285). -/
def State.timeHeld (s : State) : Bool := s.ptp.state = .locked || s.ptp.state = .holdover

/-- T_XFER of R290 in ns, rounded up to a whole µs. -/
def Session.tXfer (x : Session) (bytes : Nat) : Nat := ceilDiv (25 * x.pathNs + bytes) 25000 * 1000

end Sys2Proof.Machine
end

