-- ==== Sys2Proof/Machine/Params.lean ====
section
/-!
DEFINITION. Generation parameters, sequence table slots, and the checks of the serving opcodes (R116, R117, R133, R149, R167,
R169, R198, R205..R210, R289, R320, R323).
-/
namespace Sys2Proof.Machine

/-! ### Generation parameters (R209) -/

def gMaxNew (w : BitVec 512) : Nat := bits w.toNat 511 480
def gCount (w : BitVec 512) : Nat := bits w.toNat 479 448
def gSeed (w : BitVec 512) : BitVec 64 := BitVec.ofNat 64 (bits w.toNat 447 384)
def gModel (w : BitVec 512) : Nat := bits w.toNat 383 352
def gTemp (w : BitVec 512) : F32 := BitVec.ofNat 32 (bits w.toNat 351 320)
def gTopP (w : BitVec 512) : F32 := BitVec.ofNat 32 (bits w.toNat 319 288)
def gTopK (w : BitVec 512) : Nat := bits w.toNat 287 272
def gMode (w : BitVec 512) : Nat := bits w.toNat 271 264
def gSrc (w : BitVec 512) : Nat := bits w.toNat 263 256
def gDepth (w : BitVec 512) : Nat := bits w.toNat 255 248
def gNodes (w : BitVec 512) : Nat := bits w.toNat 247 240
def gStops (w : BitVec 512) : Nat := bits w.toNat 239 232
def gMass (w : BitVec 512) : Bool := bits w.toNat 231 231 = 1

/-- Stop token fields in force. -/
def gStopToks (w : BitVec 512) : List Nat := (List.range (gStops w)).map fun i => bits w.toNat (32 * i + 31) (32 * i)

/-- Fields in the ranges of R209 that no model decides; `handoff`: an ASK with TARGETS > 0. -/
def genFields (w : BitVec 512) (ask handoff : Bool) : Bool :=
  1 ≤ gMaxNew w && gMaxNew w ≠ 0xFFFFFFFF
    && (if ask then gCount w = 0 else 1 ≤ gCount w && gCount w ≠ 0xFFFFFFFF)
    && (!handoff || gModel w = 0)
    && gMode w ≤ 1
    && (if gMode w = 1 then fPos (gTemp w) && fPos (gTopP w) && fLe (gTopP w) 0x3F800000#32
        else gTemp w = 0#32 && gTopP w = 0#32)
    && gTopK w ≤ 4096 && (if ask then gSrc w = 0 else gSrc w ≤ 1)
    && 1 ≤ gDepth w && gDepth w ≤ 8 && 1 ≤ gNodes w && gNodes w ≤ 32 && gStops w ≤ 4
    && bits w.toNat 230 128 = 0
    && ((List.range 4).all fun i => i < gStops w || bits w.toNat (32 * i + 31) (32 * i) = 0)
    && (gStopToks w).all fun x => x < 2 ^ 18

/-! ### Sequence table (R205, R206) -/

/-- The half of the table this module allocates from (R293): first slot and end. -/
def State.slotRange (s : State) : Nat × Nat :=
  if s.pair.state = .paired || s.pair.state = .survivor || s.pair.state = .split then
    (if s.fab.ident < s.entry 0xA10001 then (0, 32768) else (32768, 65536))
  else (0, 65536)

/-- The lowest number from one on that a list does not hold, looking at `fuel` of them. -/
def firstUnused (used : List Nat) : Nat → Nat → Nat
  | 0, n => n
  | fuel + 1, n => if used.contains n then firstUnused used fuel (n + 1) else n

/-- The free slot that has been free longest: those never used in rising order, then the freed ones (R205). A slot that the
pair peer reports in use is not free (R294). -/
def State.nextSlot (s : State) : Option Nat :=
  let (lo, hi) := s.slotRange
  let used := s.seq.entries.map (·.1) ++ s.pair.peerHeld
  let f := firstUnused used used.length lo
  if f < hi then some f else s.seq.freed.find? fun n => lo ≤ n && n < hi && !s.pair.peerHeld.contains n

/-- GEN after an allocation: 0xFFFF is followed by 1 (R205). -/
def nextGen (g : Nat) : Nat := if g = 65535 then 1 else g + 1

/-- Allocates a slot and sets its entry (R205). -/
def State.takeSlot (s : State) (n : Nat) (e : SeqEntry) : State :=
  { s with seq := { s.seq with
    entries := setKey s.seq.entries n e
    freed := s.seq.freed.filter (· ≠ n) } }

/-- A handle (R205). -/
def handleOf (slot gen : Nat) : Nat := slot * 65536 + gen

/-- Codes of R206. -/
def SeqState.code : SeqState → Nat
  | .free => 0 | .reserved => 1 | .prefill => 2 | .decode => 3

/-- The state of a code. -/
def SeqState.ofCode (n : Nat) : SeqState := if n = 1 then .reserved else if n = 2 then .prefill else if n = 3 then .decode else .free

/-- Codes of R206. -/
def SeqRole.code : SeqRole → Nat
  | .unpaired => 0 | .primary => 1 | .reflectPartner => 2 | .shadowPartner => 3

/-- A table entry as the number of R206. -/
def SeqEntry.encode (e : SeqEntry) : Nat :=
  e.gen % 2 ^ 16 * 2 ^ 496 + e.state.code * 2 ^ 492 + (if e.lc then 0 else 1) * 2 ^ 491 + e.wdrawn.toNat * 2 ^ 490
    + e.role.code * 2 ^ 488 + e.model % 2 ^ 8 * 2 ^ 480 + e.steps % 2 ^ 8 * 2 ^ 472 + e.depth % 2 ^ 4 * 2 ^ 468
    + e.nodes % 2 ^ 6 * 2 ^ 462 + e.last % 2 ^ 18 * 2 ^ 444 + e.constraint % 2 ^ 16 * 2 ^ 416 + e.prompt % 2 ^ 32 * 2 ^ 384
    + e.ctx % 2 ^ 32 * 2 ^ 352 + e.generated % 2 ^ 32 * 2 ^ 320 + e.maxNew % 2 ^ 32 * 2 ^ 288 + e.aut.toNat * 2 ^ 256
    + e.seed.toNat * 2 ^ 192 + e.glist.toNat * 2 ^ 160 + e.params.toNat * 2 ^ 128 + e.firstDue % 2 ^ 64 * 2 ^ 64
    + e.route % 2 ^ 16 * 2 ^ 48 + e.pfDone % 2 ^ 32 * 2 ^ 16 + e.phase % 2 ^ 8 * 2 ^ 8

/-- The entry of a layout of R206, with a role of its own. -/
def SeqEntry.decode (role : SeqRole) (w : Nat) : SeqEntry :=
  { gen := bits w 511 496, state := .ofCode (bits w 495 492), lc := bits w 491 491 = 0, wdrawn := bits w 490 490 = 1, role := role
    model := bits w 487 480, steps := bits w 479 472, depth := bits w 471 468, nodes := bits w 467 462, last := bits w 461 444
    constraint := bits w 431 416, prompt := bits w 415 384, ctx := bits w 383 352, generated := bits w 351 320
    maxNew := bits w 319 288, aut := BitVec.ofNat 32 (bits w 287 256), seed := BitVec.ofNat 64 (bits w 255 192)
    glist := BitVec.ofNat 32 (bits w 191 160), params := BitVec.ofNat 32 (bits w 159 128), firstDue := bits w 127 64
    route := bits w 63 48, pfDone := bits w 47 16, phase := bits w 15 8 }

/-! ### Checks -/

/-- The first condition of a list that holds, in order (R323). -/
def firstOf : List (Bool × Status) → Option Status
  | [] => none
  | (c, st) :: r => if c then some st else firstOf r

/-- The live version a retrieval block checks against: pinned, or the current one (R117, log 22). -/
def State.boundVer (s : State) (w : BitVec 256) : Option IndexVer :=
  if rVersionSel w = 1 then s.liveVer (rVersion w) else s.index.live.head?

/-- A shard's records, as the index image gives them (R169). -/
def recordsOf (img : IndexImage) (sh : Nat) : Nat :=
  if sh = img.shardId then img.recordCount else lookupD img.shardCounts sh 0

/-- A passage ID exists in the group (R169). -/
def idKnown (img : IndexImage) (id : Nat) : Bool :=
  (groupShards img).contains (id / 2 ^ 48) && decide (id % 2 ^ 48 < recordsOf img (id / 2 ^ 48))

/-- Rank parameters in force for RERANK: RR_N is the ID count, PREFETCH is 0 (R169, log 23). -/
def rerankParams (w : BitVec 512) (ids : Nat) : BitVec 512 :=
  BitVec.ofNat 512 (w.toNat % 2 ^ 480 + ids % 2 ^ 16 * 2 ^ 496)

/-- Checks of R149 after the field ranges. `k`: the K that rows 2 and 3 compare with, none for PACK (log 23). `g`: the
generation block of an ASK. -/
def State.check149 (s : State) (w : BitVec 512) (k : Option Nat) (img : IndexImage) (g : Option (BitVec 512)) :
    Option Status :=
  let tpl := s.template (kTemplate w)
  let targets := [kTarget0 w, kTarget1 w].take (kTargets w)
  let model := match g with
    | some g => if kTargets w = 0 then s.modelId (gModel g) 1 else none
    | none => none
  firstOf [
    (!rankFields w img.passageMax, .fieldReserved),
    ((match k with
      | some k => !rankRelations w k
      | none => false), .fieldReserved),
    (tpl.isNone || !targets.all s.partner, .unknownObject),
    (0 < kCeN w && (img.ceImage = 0 || (s.modelId img.ceImage 4).isNone), .stateConflict),
    ((match tpl with
      | some m => !(m.img.segs.any fun d => segType d = 3) || m.img.vocab ≠ img.passageVocab
          || (match model with
            | some x => m.img.vocab ≠ x.img.vocab
            | none => false)
      | none => true), .stateConflict),
    ((match tpl with
      | some m => kBudget w < m.img.fixedTok
          || (match model, g with
            | some x, some g => x.img.contextMax < kBudget w + gMaxNew g
            | _, _ => false)
          || (kTargets w ≠ 0 && 1048576 < 512 + 4 * kBudget w)
      | none => true), .lengthExceeds)]

/-- Checks of R210 for a request that generates here, on a prompt bound. -/
def State.check210 (s : State) (g : BitVec 512) (bound : Nat) : Option Status :=
  let m := s.modelId (gModel g) 1
  let toks := match m with
    | some x => (s.vocab x.img.vocab).map (·.img.tokenCount)
    | none => none
  firstOf [
    ((match toks with
      | some n => (gStopToks g).any fun x => n ≤ x
      | none => false), .fieldReserved),
    (gSrc g = 1 && 1048576 < gCount g, .lengthExceeds),
    (m.isNone, .unknownObject),
    ((match m with
      | some x => x.victim
      | none => false), .stateConflict),
    ((match m with
      | some x => decide (x.img.contextMax < bound + gMaxNew g)
      | none => false), .lengthExceeds)]

/-- The constraint list that the options name (R198). `f`: the submitting function; `model`: none where a target generates. -/
def State.checkList (s : State) (f : Nat) (o : BitVec 256) (model : Option ModelRes) : Option Status :=
  if oConstraint o = 0 then none else
  match s.clist (oConstraint o) with
  | none => some .unknownObject
  | some c =>
    if c.fn ≠ f then some .unknownObject
    else match model with
      | some m => if clVocab c.img.header = m.img.vocab then none else some .stateConflict
      | none => none

/-- Either check's failure, the first one first. -/
def orElse (a b : Option Status) : Option Status :=
  match a with
  | some x => some x
  | none => b

/-- Result bytes of R133. -/
def retrBytes (k : Nat) : Nat := 64 + 16 * k

/-- Result bytes of R167. -/
def rankBytes (w : BitVec 512) : Nat :=
  (if kRetReport w then 64 + 16 * kSelMax w else 0) + (if kRetPrompt w then 4 * kBudget w else 0)

/-- Checks 7 to 9 of ASK (R117, R149, R210, R198, R167, R31), in the order of log 21. -/
def State.checkAsk (s : State) (r : Request) (x : Fetched) (p : Payload) : Option Status :=
  let d := x.desc
  let hand := kTargets p.rank ≠ 0
  orElse (firstOf [
    (dPayLen d < 640 + dTextLen d, .lengthExceeds),
    (!retrOk p.retr p.filters true, .fieldReserved),
    (!rankFields p.rank 65535, .fieldReserved),
    (!optsOk p.opts p.stops, .fieldReserved),
    (rVersionSel p.retr = 1 && (s.liveVer (rVersion p.retr)).isNone, .versionStale)])
  (match s.boundVer p.retr with
    | none => some .stateConflict
    | some v =>
      orElse (s.check149 p.rank (some (rK p.retr)) v.img (some p.gen)) <|
      orElse (if genFields p.gen true hand then none else some .fieldReserved) <|
      orElse (if hand then none else s.check210 p.gen (kBudget p.rank)) <|
      orElse (s.checkList r.fn p.opts (if hand then none else s.modelId (gModel p.gen) 1)) <|
      firstOf [
        (dResLen d < rankBytes p.rank + (match s.template (kTemplate p.rank) with
          | some m => if m.img.returnRetr then retrBytes (rK p.retr) else 0
          | none => 0), .lengthExceeds),
        (r.lc && s.entry (perFn 0x2100 r.fn) = 0, .accessDenied)])

/-- The version that an inline sketch binds to: the pinned one, or that of the sweep it books (R116, R117); the current one where it
finds no sweep. -/
def State.bookedVer (s : State) (r : Request) (w : BitVec 256) : Option IndexVer :=
  if rVersionSel w = 1 then s.boundVer w else
  match s.book (s.admitsAt r) none r.lc with
  | some n => s.imgOf n
  | none => s.boundVer w

/-- Checks 7 to 9 of RETRIEVE. -/
def State.checkRetrieve (s : State) (r : Request) (x : Fetched) (p : Payload) : Option Status :=
  let d := x.desc
  let inline := rSketchSrc p.retr = 1
  let width := match s.bookedVer r p.retr with
    | some v => sketchBits v.img.format / 8
    | none => p.sketch.length
  firstOf [
    (dPayLen d < 160, .lengthExceeds),
    (!retrOk p.retr p.filters false, .fieldReserved),
    (rVersionSel p.retr = 1 && (s.liveVer (rVersion p.retr)).isNone, .versionStale),
    (inline && (p.sketch.length ≠ width || dTextLen d ≠ 0), .fieldReserved),
    (dPayLen d < 192 + (if inline then width else dTextLen d), .lengthExceeds),
    (!optsOk p.opts [], .fieldReserved),
    (dResLen d < retrBytes (rK p.retr), .lengthExceeds),
    (r.lc && s.entry (perFn 0x2100 r.fn) = 0, .accessDenied)]

/-- The encoder that EMBED runs: that of the current index, else the resident one of the lowest slot (log 20). -/
def State.embedder (s : State) : Option ModelRes :=
  match s.index.live.head? with
  | some v => s.encoder v.img.rotationId
  | none => s.img.models.find? fun m => m.img.kind = 3 && !m.old

/-- Checks 7 to 9 of EMBED. -/
def State.checkEmbed (s : State) (r : Request) (x : Fetched) (p : Payload) : Option Status :=
  let d := x.desc
  firstOf [
    (dPayLen d < 32 + dTextLen d, .lengthExceeds),
    (!optsOk p.opts [], .fieldReserved),
    (s.embedder.isNone, .stateConflict),
    (dResLen d < 4 * (match s.embedder with
      | some m => m.img.embedDim
      | none => 0), .lengthExceeds),
    (r.lc && s.entry (perFn 0x2100 r.fn) = 0, .accessDenied)]

/-- Checks 7 to 9 of RERANK (R149, R169). -/
def State.checkRerank (s : State) (r : Request) (x : Fetched) (p : Payload) : Option Status :=
  let d := x.desc
  let w := rerankParams p.rank (dIdCount d)
  orElse (firstOf [
    (dPayLen d < 96 + (if dVec d = 1 then 0 else dTextLen d) + 8 * dIdCount d, .lengthExceeds),
    (!rankFields p.rank 65535, .fieldReserved),
    (!optsOk p.opts [], .fieldReserved)])
  (match s.index.live.head? with
    | none => some .stateConflict
    | some v =>
      orElse (firstOf [
        (dVec d = 1 && dPayLen d < 96 + v.img.vecDim + 8 * dIdCount d, .lengthExceeds),
        (dVec d = 1 && p.vec.length ≠ v.img.vecDim, .fieldReserved)]) <|
      orElse (s.check149 w (some (dIdCount d)) v.img none) <|
      firstOf [
        (!(p.ids.all fun i => idKnown v.img i.toNat), .unknownObject),
        (dResLen d < rankBytes p.rank, .lengthExceeds),
        (r.lc && s.entry (perFn 0x2100 r.fn) = 0, .accessDenied)])

/-- Checks 7 to 9 of PACK (R149, R170). -/
def State.checkPack (s : State) (r : Request) (x : Fetched) (p : Payload) : Option Status :=
  let d := x.desc
  orElse (firstOf [
    (dPayLen d < 96 + dTextLen d + 8 * dIdCount d, .lengthExceeds),
    (!rankFields p.rank 65535, .fieldReserved),
    (!optsOk p.opts [], .fieldReserved)])
  (match s.index.live.head? with
    | none => some .stateConflict
    | some v =>
      orElse (s.check149 p.rank none v.img none) <|
      firstOf [
        (dResLen d < rankBytes p.rank, .lengthExceeds),
        (r.lc && s.entry (perFn 0x2100 r.fn) = 0, .accessDenied)])

/-- Checks 7 to 9 of GENERATE (R209, R210, R198). -/
def State.checkGenerate (s : State) (r : Request) (x : Fetched) (p : Payload) : Option Status :=
  let d := x.desc
  orElse (firstOf [
    (dPayLen d < 416, .lengthExceeds),
    (!genFields p.gen false false, .fieldReserved),
    (!optsOk p.opts p.stops, .fieldReserved)]) <|
  orElse (s.check210 p.gen (gCount p.gen)) <|
  orElse (s.checkList r.fn p.opts (s.modelId (gModel p.gen) 1)) <|
  firstOf [
    (dPayLen d < 416 + (if gSrc p.gen = 1 then gCount p.gen else 4 * gCount p.gen), .lengthExceeds),
    (r.lc && s.entry (perFn 0x2100 r.fn) = 0, .accessDenied)]

/-! ### The bytes of a payload (R208) -/

/-- Little-endian words of `b` bytes in turn. -/
def wordsOf (b : Nat) (bs : List Byte) : List Nat := (chunks b (bs.length / b) bs).map ofLe

/-- What the parts of a request's payload are in host memory, in the order of R208. -/
def payloadBytes (op : Nat) (p : Payload) : List Byte :=
  let retr := leBytes 32 p.retr.toNat ++ p.filters.flatMap fun w => leBytes 16 w.toNat
  let opts := leBytes 32 p.opts.toNat
  let stops := p.stops.flatMap fun w => leBytes 40 w.toNat
  let ids := p.ids.flatMap fun w => leBytes 8 w.toNat
  match op with
  | 0x01 => retr ++ leBytes 64 p.rank.toNat ++ leBytes 64 p.gen.toNat ++ opts ++ stops ++ p.text.flatten
  | 0x02 => retr ++ p.sketch ++ opts ++ p.text.flatten
  | 0x03 => opts ++ p.text.flatten
  | 0x04 => leBytes 64 p.rank.toNat ++ opts ++ p.text.flatten ++ p.vec ++ ids
  | 0x05 => leBytes 64 p.rank.toNat ++ opts ++ p.text.flatten ++ ids
  | 0x06 => leBytes 64 p.gen.toNat ++ opts ++ stops ++ p.text.flatten ++ p.prompt.flatMap fun w => leBytes 4 w.toNat
  | _ => []

/-- Where the buffers behind a payload begin and end in it: the listed ones of LIST, else one (R320). -/
def bufferSpans (x : Fetched) : List (Nat × Nat) :=
  if dMode x.desc = 1 then
    (x.list.foldl (fun (a : Nat × List (Nat × Nat)) (e : BitVec 128) => (a.1 + listLen e, a.2 ++ [(a.1, a.1 + listLen e)])) (0, [])).2
  else [(0, dPayLen x.desc)]

/-- The parts of a payload as the lengths of the descriptor and of the blocks before them cut its bytes; its text comes in one piece
for each buffer that holds some of it, which are the input buffers of R180 (R208, R319, R320). -/
def cutPayload (x : Fetched) (bs : List Byte) : Payload :=
  let d := x.desc
  let part (off n : Nat) : List Byte := (bs.drop off).take n
  let num (off n : Nat) : Nat := ofLe (part off n)
  let text (off n : Nat) : List (List Byte) := (bufferSpans x).filterMap fun b =>
    let lo := max b.1 off
    let hi := min b.2 (off + n)
    if lo < hi then some (part lo (hi - lo)) else none
  let retr : BitVec 256 := BitVec.ofNat 256 (num 0 32)
  let filters : List (BitVec 128) := (wordsOf 16 (part 32 128)).map (BitVec.ofNat 128)
  let stops (off : Nat) : List (BitVec 320) := (wordsOf 40 (part off 320)).map (BitVec.ofNat 320)
  let ids (off : Nat) : List (BitVec 64) := (wordsOf 8 (part off (8 * dIdCount d))).map (BitVec.ofNat 64)
  match dOp d with
  | 0x01 => { retr := retr, filters := filters, rank := BitVec.ofNat 512 (num 160 64), gen := BitVec.ofNat 512 (num 224 64)
              opts := BitVec.ofNat 256 (num 288 32), stops := stops 320, text := text 640 (dTextLen d) }
  | 0x02 =>
    let n := if rSketchSrc retr = 1 then dPayLen d - 192 else 0
    { retr := retr, filters := filters, sketch := part 160 n, opts := BitVec.ofNat 256 (num (160 + n) 32)
      text := text (192 + n) (dTextLen d) }
  | 0x03 => { opts := BitVec.ofNat 256 (num 0 32), text := text 32 (dTextLen d) }
  | 0x04 =>
    let n := if dVec d = 1 then dPayLen d - 96 - 8 * dIdCount d else 0
    let t := if dVec d = 1 then 0 else dTextLen d
    { rank := BitVec.ofNat 512 (num 0 64), opts := BitVec.ofNat 256 (num 64 32), text := text 96 t, vec := part (96 + t) n
      ids := ids (96 + t + n) }
  | 0x05 => { rank := BitVec.ofNat 512 (num 0 64), opts := BitVec.ofNat 256 (num 64 32), text := text 96 (dTextLen d)
              ids := ids (96 + dTextLen d) }
  | 0x06 =>
    let g : BitVec 512 := BitVec.ofNat 512 (num 0 64)
    { gen := g, opts := BitVec.ofNat 256 (num 64 32), stops := stops 96
      text := if gSrc g = 1 then text 416 (gCount g) else []
      prompt := if gSrc g = 1 then [] else (wordsOf 4 (part 416 (4 * gCount g))).map (BitVec.ofNat 32) }
  | _ => {}

end Sys2Proof.Machine
end

