-- ==== Sys2Proof/Machine/Table.lean ====
section
/-!
DEFINITION. Rows of embedding tables (R88, R240, R241), the range map (R243, R244).
-/
namespace Sys2Proof.Machine

/-- The bytes of a row that its elements and scales take, before padding. -/
def rowOk (d : TableDesc) (v : RowVal) : Bool :=
  v.elems.length = d.dim && v.scales.length = (if d.format = 3 then d.dim / 32 else 0)

/-- The descriptor of a table in the map in force. -/
def State.table (s : State) (id : Nat) : Option TableDesc := s.pool.descs.find? fun d => d.tableId = id

def rgTable (w : BitVec 256) : Nat := bits w.toNat 255 224
def rgHome (w : BitVec 256) : Nat := bits w.toNat 223 192
def rgLo (w : BitVec 256) : Nat := bits w.toNat 191 128
def rgHi (w : BitVec 256) : Nat := bits w.toNat 127 64
def rgPaired (w : BitVec 256) : Bool := bits w.toNat 0 0 = 1

/-- A range entry from its fields (R243). -/
def mkRange (table home lo hi : Nat) (paired : Bool) : BitVec 256 :=
  BitVec.ofNat 256 (table % 2 ^ 32 * 2 ^ 224 + home % 2 ^ 32 * 2 ^ 192 + lo % 2 ^ 64 * 2 ^ 128 + hi % 2 ^ 64 * 2 ^ 64
    + paired.toNat)

/-- The range entry that holds a row. -/
def rangeIn (rs : List (BitVec 256)) (table row : Nat) : Option (BitVec 256) :=
  rs.find? fun w => rgTable w = table && rgLo w ≤ row && row ≤ rgHi w

/-- Widened element i of a row, as FP32 (R80, R241). -/
def rowElem (d : TableDesc) (v : RowVal) (i : Nat) : F32 :=
  let w := v.elems.getD i 0
  match d.format with
  | 1 => widen .bf16 0 w
  | 2 => widen .int8 0 w
  | 3 => widen (if d.subfmt = 0 then .e4m3 else .e5m2) (v.scales.getD (i / 32) 0) w
  | _ => BitVec.ofNat 32 w

/-- The identifiers this module answers to (R278, R306). -/
def State.isSelf (s : State) (id : Nat) : Bool := id = s.fab.ident || s.fab.alsoId.contains id

/-! ### Rows held here -/

/-- A value as of a time: that before every V(w) later than it (R259). -/
def valueAt (v : RowVal) (hist : List (Time × RowVal)) (t : Time) : RowVal :=
  match hist with
  | [] => v
  | (w, old) :: r => if t < w then valueAt old r t else v

/-- The descriptor of a live version of a table. -/
def State.tableVer (s : State) (id v : Nat) : Option TableDesc :=
  (s.pool.descs ++ s.pool.tables.map (·.desc)).find? fun d => d.tableId = id && d.version = v

/-- The rows of a live version held at this module. -/
def State.poolTable (s : State) (id v : Nat) : Option PoolTable :=
  s.pool.tables.find? fun x => x.desc.tableId = id && x.desc.version = v

/-- A home row of a live version. -/
def State.poolRow (s : State) (id v row : Nat) : Option PoolRow :=
  (s.poolTable id v).bind fun x => x.rows.find? fun r => r.row = row

/-- A row in this module's lend area as of a time: none when no copy here holds it, or it is lost (R244, R252, R268). -/
def State.heldAt (s : State) (id v row : Nat) (t : Time) : Option RowVal :=
  match s.poolRow id v row with
  | some r => if r.lost then none else some (valueAt r.value r.prev t)
  | none =>
    match s.pool.replicas.find? fun r => r.table = id && r.version = v && r.row = row with
    | some r => if r.from_ ≤ t && (match r.removeAt with
        | some x => t < x
        | none => true) then some (valueAt r.value r.prev t) else none
    | none => none

/-- The home of a row in the map in force. -/
def State.homeOf (s : State) (id row : Nat) : Nat := (rangeIn s.pool.ranges id row).elim 0 rgHome

/-- The module serves this home: it answers to its identifier, as after an eclipse to that of the pair (R267, R306). -/
def State.homeHere (s : State) (id row : Nat) : Bool := s.isSelf (s.homeOf id row)

/-- This module is the half of a paired home that does not serve it (R267). -/
def State.pairHalf (s : State) (id row : Nat) : Bool :=
  !s.homeHere id row && s.entry 0xA10001 ≠ 0 && (rangeIn s.pool.ranges id row).any fun w => rgPaired w && rgHome w = s.entry 0xA10001

/-- The copy a row is read from (R244): none for the module's own. -/
def State.copyOf (s : State) (id v row : Nat) (t : Time) : Option Nat :=
  if s.homeHere id row || (s.heldAt id v row t).isSome then none
  else match s.pool.lists.find? fun l => !l.mine && l.table = id && l.row = row && t < l.expiry with
    | some l => some ((s.homeOf id row :: l.holders).getD (s.fab.ident % (l.holders.length + 1)) (s.homeOf id row))
    | none => some (s.homeOf id row)

/-! ### Answers on deltas (R257, R260, R269) -/

/-- Key of a combined delta: table, row, window. -/
def deltaKey (table row window : Nat) : Nat := (table * 2 ^ 64 + row) * 2 ^ 64 + window

/-- Table and row of a key. -/
def keyTable (k : Nat) : Nat := k / 2 ^ 128
def keyRow (k : Nat) : Nat := k / 2 ^ 64 % 2 ^ 64

/-- Progress of an update after an answer on a key. -/
def answerWork (key : Nat) (applied stale : Bool) (u : UpdateWork) : UpdateWork :=
  if u.homes.contains key then
    { u with homes := u.homes.filter (· ≠ key), refused := u.refused + (!applied && !stale).toNat, stale := u.stale || stale }
  else u

/-- A TABLE_UPDATE ends when every delta is answered (R260, R325). -/
def State.endUpdate (s : State) (k : Nat × Nat) : State :=
  match s.req k.1 k.2 with
  | none => s
  | some r =>
    match r.update with
    | some (_, u) =>
      if u.homes.isEmpty then
        (s.lateResult r).finish r
          { status := if u.stale then .versionStale else if u.skipped + u.refused ≠ 0 then .partDone else .done
            final := true, countA := u.skipped, countB := u.refused }
      else s
    | none => s

/-- An answer on a delta reaches the requests that wait for it. -/
def State.answerDelta (s : State) (key : Nat) (applied stale : Bool) : State :=
  let waits (r : Request) : Bool := r.update.any fun p => p.2.homes.contains key
  let ks := (s.reqs.filter waits).map fun r => (r.fn, r.tag)
  let s1 : State := { s with reqs := s.reqs.map fun r =>
    { r with update := r.update.map fun p => (p.1, answerWork key applied stale p.2) } }
  ks.foldl State.endUpdate s1

/-- An unpaired home is lost: the deltas that wait on it count as refused (R269). -/
def State.homeLost (s : State) (id : Nat) : State :=
  let keys := ((s.reqs.flatMap fun r => r.update.elim [] fun p => p.2.homes).filter fun k =>
    s.homeOf (keyTable k) (keyRow k) = id && !((rangeIn s.pool.ranges (keyTable k) (keyRow k)).any rgPaired)).eraseDups
  let s1 : State := { s with pool := { s.pool with outgoing := s.pool.outgoing.filter fun q => !keys.contains q.key } }
  (keys.foldl (fun s k => s.answerDelta k false false) s1).count 0x501009 keys.length

/-! ### Reading rows (R244, R247, R250, R254) -/

/-- Key of a gather on the wire (R287). -/
def gatherKey (r : Request) : Nat := r.fn * 2 ^ 64 + r.tag

/-- Counts a read of a row for the hot-row slot (R254). -/
def State.countRead (s : State) (table row who : Nat) : State :=
  let same (x : Nat × Nat × Nat × Nat) : Bool := x.1 = table && x.2.1 = row && x.2.2.1 = who
  let bump (x : Nat × Nat × Nat × Nat) : Nat × Nat × Nat × Nat := if same x then (table, row, who, x.2.2.2 + 1) else x
  let reads := if s.pool.reads.any same then s.pool.reads.map bump else s.pool.reads ++ [(table, row, who, 1)]
  { s with pool := { s.pool with reads := reads } }

/-- One row of a gather: read here, asked for at its copy, or unserved (R244, R247, R250). -/
def State.readRow (r : Request) (p : State × GatherWork) (row : Nat) : State × GatherWork :=
  let s := p.1
  let g := p.2
  match s.copyOf g.table g.version row g.time with
  | none =>
    match s.heldAt g.table g.version row g.time with
    | some v => (s.countRead g.table row s.fab.ident, { g with have_ := g.have_ ++ [(row, v)] })
    | none => (s, { g with unserved := g.unserved ++ [row] })
  | some id =>
    if r.mirror then (s, { g with await := g.await ++ [row] })
    else if s.partner id then
      (s.emit (.fabric id 0x30 [g.table, g.version, row, g.time, gatherKey r]
        (rowReqWire g.table g.version row g.time (gatherKey r))), { g with await := g.await ++ [row] })
    else (s, { g with unserved := g.unserved ++ [row] })

/-- The rows of a gather that begins now, each once: T is the start of the present step (R250). -/
def State.readRows (s : State) (r : Request) (d : TableDesc) (rows : List Nat) : State × GatherWork :=
  let g : GatherWork := { table := d.tableId, version := d.version, time := stepOf s.now * 50000, epoch := s.pool.epoch.toNat }
  ((rows.filter (· < d.rowCount)).eraseDups).foldl (State.readRow r) (s, g)

/-- The row that a position uses (R247). -/
def rowFor (d : TableDesc) (have_ : List (Nat × RowVal)) (row : Nat) : RowVal :=
  if row < d.rowCount then (getKey have_ row).getD d.default else d.default

/-! ### Feature rows of the cross-encoder (R155) -/

/-- Row index of a feature of a candidate: its passage ID or the user key. -/
def featureRow (byUser : Bool) (w : BitVec 512) (c : Cand) : Nat := if byUser then kUserKey w else c.id

/-- The gathers of stage 9 begin: one per feature table of the cross-encoder that the map names, of the version live at the start
of this step (R26, R155). -/
def State.readFeatures (s : State) (r : Request) (m : ModelRes) (cs : List Cand) : State × List GatherWork :=
  m.img.features.foldl (fun p f => match p.1.table f.1 with
    | some d =>
      let x := p.1.readRows r d (cs.map (featureRow f.2 r.payload.rank))
      (x.1, p.2 ++ [x.2])
    | none => (p.1, p.2 ++ [{ table := f.1, version := 0, time := 0, epoch := 0 }])) (s, [])

/-- What one candidate's features take from their gathers. -/
def State.featureRows (s : State) (w : BitVec 512) (m : ModelRes) (gs : List GatherWork) (c : Cand) : List RowVal :=
  (m.img.features.zip gs).filterMap fun p => (s.tableVer p.2.table p.2.version).map fun d => rowFor d p.2.have_ (featureRow p.1.2 w c)

/-- The inputs of stage 9 (R155). -/
def State.crossInputs (s : State) (r : Request) (m : ModelRes) (cs : List Cand) : List CrossInput :=
  cs.map fun c => { user := r.work.tokens.take m.img.queryMax, heads := c.heads, rows := s.featureRows r.payload.rank m r.work.feats c }

/-- Counts of the one-position gathers of stage 9 (R247, R270). -/
def State.countFeatures (s : State) (w : BitVec 512) (m : ModelRes) (gs : List GatherWork) (cs : List Cand) : State :=
  let rows := (m.img.features.zip gs).flatMap fun p => match s.tableVer p.2.table p.2.version with
    | some d => cs.map fun c => (d, p.2, featureRow p.1.2 w c)
    | none => []
  let missing := (rows.filter fun p => p.2.2 = 2 ^ 64 - 1).length
  let invalid := (rows.filter fun p => p.2.2 ≠ 2 ^ 64 - 1 && p.1.rowCount ≤ p.2.2).length
  let unserved := (rows.filter fun p => p.2.2 < p.1.rowCount && p.2.1.unserved.contains p.2.2).length
  (((s.count 0x501001 rows.length).count 0x501002 missing).count 0x501003 invalid).count 0x501004 unserved

end Sys2Proof.Machine
end

