-- ==== Sys2Proof/Machine/Remote.lean ====
section
/-!
DEFINITION. Candidates that other members of an index group hold, and the entry into the ranking stages (R24, R121, R155, R160,
R169).
-/
namespace Sys2Proof.Machine

/-- Fabric identifier of a group member. -/
def memberFab (i : IndexImage) (m : Nat) : Nat := i.memberIds.getD m 0

/-- A group member is in service: this module, or one with an OPEN session (R121). -/
def State.memberIn (s : State) (i : IndexImage) (m : Nat) : Bool := m = i.member || s.partner (memberFab i m)

/-- The member asked for candidates of a shard: that whose list counted (R128); for given candidates the lowest one in
service that holds the shard (log 45). -/
def State.remoteSource (s : State) (r : Request) (i : IndexImage) (sh : Nat) : Option Nat :=
  if r.op = 0x01 then getKey r.work.sources sh
  else (List.range i.members).find? fun m => m ≠ i.member && i.shardMap.getD m 0 = sh && s.memberIn i m

/-- One message per shard to its member, with q for scores, without it for passages (R160). Candidates that no member in
service can answer for are lost. -/
def State.askRemote (s : State) (r : Request) (i : IndexImage) (passages : Bool) (cs : List Cand) : State :=
  let foreign := ((cs.map fun c => shardOf c.id).filter (· ≠ i.shardId)).eraseDups
  let asked := foreign.filterMap fun sh => match s.remoteSource r i sh with
    | some m => if s.partner (memberFab i m) then some (sh, memberFab i m) else none
    | none => none
  let ords (sh : Nat) : List Nat := (cs.filter fun c => shardOf c.id = sh).map fun c => c.id % 2 ^ 48
  let q := if passages then [] else r.work.qvec.map fun z => (z % 256).toNat
  let s1 := if r.mirror then s else asked.foldl (fun s p => s.emit (.fabric p.2 0x13 [r.tag, i.version, passages.toNat]
    (candReqWire r.tag i.version passages q (ords p.1)))) s
  (s1.count 0x311006 (foreign.length - asked.length)).modWork r.fn r.tag fun k => { k with
    remote := asked.map (·.1), asked := asked, since := s.now
    cands := k.cands.map fun c =>
      if foreign.contains (shardOf c.id) && !(asked.any fun p => p.1 = shardOf c.id) && (!passages || c.selected)
      then { c with lost := true } else c }

/-- Puts a request into stage 11 and asks other members for their passages (R159, R160). -/
def State.enterFetch (s : State) (r : Request) : State :=
  let s1 := s.modWork r.fn r.tag fun k => { k with stage := 11, lostOrds := [], readOrds := [] }
  match s.liveVer r.work.version with
  | some v => s1.askRemote r v.img true (r.work.cands.filter (·.selected))
  | none => s1

/-- The cross-encoder of a request's index version (R144, R155). -/
def State.crossModel (s : State) (r : Request) : Option ModelRes :=
  (s.liveVer r.work.version).bind fun v => s.modelId v.img.ceImage 4

/-- Head tokens of an own-shard candidate that no re-rank read (RR_N = 0), from its vector record (R145; log 189). -/
def headed (i : IndexImage) (c : Cand) : Cand :=
  if c.score.isSome || shardOf c.id ≠ i.shardId || vecLost i (c.id % 2 ^ 48) [] then c
  else { c with heads := (scoreOf i [] (c.id % 2 ^ 48)).2 }

/-- Puts a request into stage 9, whose gathers begin, or into stage 10 where it has none (R24, R155). -/
def State.enterCross (s : State) (r : Request) : State :=
  if kCeN r.payload.rank = 0 then s.modWork r.fn r.tag fun k => { k with stage := 10 }
  else match s.liveVer r.work.version, s.crossModel r with
    | some v, some m =>
      let x := s.readFeatures r m (r.work.cands.take (kCeN r.payload.rank))
      x.1.modWork r.fn r.tag fun k => { k with stage := 9, feats := x.2, since := s.now, cands := k.cands.map (headed v.img) }
    | _, _ => s.modWork r.fn r.tag fun k => { k with stage := 9, feats := [] }

/-- Puts a request into the first stage it has after its candidates are known: 8, 9 or 10 (R24, R168). -/
def State.enterRank (s : State) (r : Request) : State :=
  if kRrN r.payload.rank ≠ 0 then
    let s1 := s.modWork r.fn r.tag fun k => { k with stage := 8 }
    match s.liveVer r.work.version with
    | some v => s1.askRemote r v.img false r.work.cands
    | none => s1
  else s.enterCross r

/-- An accepted RERANK with an inline vector is in stage 8 at once, and asks other members for its candidates there (R169). -/
def State.startRerank (s : State) (f tag : Nat) : State :=
  match s.req f tag with
  | none => s
  | some r => if r.op = 0x04 && r.work.stage = 8 && r.round.isNone then s.enterRank r else s

end Sys2Proof.Machine
end

