-- ==== Sys2Proof/Machine/Admission.lean ====
section
/-!
DEFINITION. Admission of the serving requests (R25..R45, R105, R107, R108, R147, R164, R168, R185, R205, R251, R290,
R295..R298): stage bounds and charges, promise record, reservation, acceptance.
-/
namespace Sys2Proof.Machine

/-! ### Stage bounds and charges, in stage order -/

/-- Progress of an admission: the state with the charges so far, the end of the bounds so far, and whether all fit. A BE
request takes no charge and no bound (R30, R31). -/
structure Adm where
  s : State
  r : Request
  t : Time
  ok : Bool := true

/-- Adds a bound. -/
def Adm.wait (a : Adm) (ns : Nat) : Adm := { a with t := a.t + ns }

/-- Charges `amount` in equal shares over the smallest number of units that fits, from the present bound on (R43). -/
def Adm.spread (a : Adm) (l : Ledger) (amount : Nat) : Adm × Nat :=
  if !a.r.lc || amount = 0 then (a, 0) else
  let u := a.s.unitOf l a.t
  match a.s.spread l amount u with
  | none => ({ a with ok := false }, 0)
  | some n => ({ a with s := a.s.charge a.r.fn a.r.tag l u n amount }, n)

/-- Charges `amount` over the units from one time to another. -/
def Adm.spanned (a : Adm) (l : Ledger) (amount : Nat) (upto : Time) : Adm :=
  if !a.r.lc then a else
  let u := a.s.unitOf l a.t
  { a with s := a.s.charge a.r.fn a.r.tag l u (a.s.unitOf l upto - u + 1) amount }

/-- Stage 2: `v` vocabularies over `b` bytes (R185). -/
def Adm.tokenize (a : Adm) (v b : Nat) : Adm :=
  if !a.r.lc then a else
  let us := ceilDiv (v * b) 64
  let u := a.s.unitOf .text a.t
  if fle (fadd (a.s.load .text u) (us * 1000, 1)) (a.s.cap .text) then
    ({ a with s := a.s.charge a.r.fn a.r.tag .text u 1 (us * 1000) }).wait (50000 + us * 1000)
  else
    let x := a.spread .text (us * 1000)
    x.1.wait ((x.2 + 1) * 50000)

/-- Planned copies of a stage's batches of `rows` rows, charged over its base steps (R37, R96). -/
def Adm.planned (a : Adm) (m : ModelRes) (rows steps : Nat) : Adm :=
  if !a.r.lc then a else
  let bytes := planTbl m.img * ceilDiv rows (max 1 m.img.batchRows)
  { a with s := a.s.charge a.r.fn a.r.tag .tblBytes (a.s.unitOf .tblBytes a.t) (max 1 steps) bytes }

/-- Stages 3 and 4: the encoder's prefill work over one token per byte (log 24). -/
def Adm.embed (a : Adm) (enc : Option ModelRes) (b : Nat) : Adm :=
  let x := a.spread .handshakes (enc.elim 0 fun m => m.img.hPre * b)
  let y := enc.elim x.1 fun m => x.1.planned m b x.2
  if a.r.lc then y.wait ((x.2 + 1) * 50000) else y

/-- T_FR (R368) and the work after it (R168). -/
def tReads : Nat := 560000 + 40000

/-- Candidates of other shards are possible (R168). -/
def remoteTerm (s : State) (img : IndexImage) (scope : Nat) : Nat :=
  if scope = 1 && 1 < (groupShards img).length then s.entry 0x310001 else 0

/-- Stage 8 (R147, R168); `others` of the candidates lie with other members and charge nothing here. R37 names no amount of handshakes for exact re-ranking: none are charged (DESIGN CHOICE, log 174). -/
def Adm.rerank (a : Adm) (w : BitVec 512) (others remote : Nat) : Adm :=
  if kRrN w = 0 || !a.r.lc then a
  else (a.spanned .flash ((kRrN w + kPrefetch w - others) * 4096) (a.t + tReads)).wait (tReads + remote)

/-- Feature row bytes of one candidate (R155, R251). -/
def State.featureBytes (s : State) (m : ModelRes) : Nat :=
  (m.img.features.map fun f => match s.table f.1 with
    | some d => rowBytes d
    | none => 0).sum

/-- Stage 9 (R168). -/
def Adm.cross (a : Adm) (w : BitVec 512) (ce : Option ModelRes) (headTokens : Nat) : Adm :=
  match ce with
  | none => a
  | some m =>
    if kCeN w = 0 || !a.r.lc then a else
    let a1 := if m.img.features.isEmpty then a else
      let x := a.spread .tblBytes (kCeN w * a.s.featureBytes m)
      x.1.wait ((x.2 + 1) * 50000 + a.s.entry 0x500004)
    let rows := kCeN w * (m.img.queryMax + headTokens + m.img.features.length)
    let y := a1.spread .handshakes (rows * m.img.hPre)
    (y.1.planned m rows y.2).wait (y.2 * 50000)

/-- Stage 11 (R147, R168): the passages of `n` candidates, of which `others` lie with other members and charge nothing here. -/
def Adm.fetch (a : Adm) (n others pmax remote : Nat) : Adm :=
  if !a.r.lc then a
  else (a.spanned .flash ((n - others) * (ceilDiv (16 + 4 * pmax) 4096 + 1) * 4096) (a.t + tReads)).wait (tReads + remote)

/-- Base steps of the pack bound less the added one: the budget over 64 × 49.5 tokens (R168). -/
def packSteps (budget : Nat) : Nat := ceilDiv budget 3168

/-- Stage 12 (R168): the packer's time is charged to the text-engine ledger. -/
def Adm.pack (a : Adm) (budget : Nat) : Adm :=
  if !a.r.lc then a else
  let u := a.s.unitOf .text a.t
  ({ a with s := a.s.charge a.r.fn a.r.tag .text u (packSteps budget) (ceilDiv budget 64 * 1000) }).wait
    ((packSteps budget + 1) * 50000)

/-- Stage 13 of a hand-off (R168, R284, R290): every target has a session within the path cap. -/
def Adm.handoff (a : Adm) (targets : List Nat) (budget : Nat) : Adm :=
  if !a.r.lc then a else
  let bytes := 512 + 4 * budget
  targets.foldl (fun a id => match a.s.session id with
    | none => { a with ok := false }
    | some x =>
      let ok := a.ok && x.pathNs ≤ a.s.entry 0xA01002
      let u := a.s.unitOf .handoff (a.t + x.tXfer bytes)
      ({ a with s := a.s.charge a.r.fn a.r.tag .handoff u 1 bytes, ok := ok }).wait
        (x.tXfer bytes + a.s.entry 0x310004)) a

/-- Prefill share and first-token step (R43); the number of base steps n_pf. A BE prefill uses 1 (R214). -/
def Adm.prefill (a : Adm) (m : ModelRes) (prompt : Nat) : Adm × Nat :=
  if !a.r.lc then (a, 1) else
  let x := a.spread .handshakes (m.img.hPre * prompt)
  (x.1.wait (x.2 * 50000 + 50000), max 1 x.2)

/-- Books the query's sweep (R44): an LC query takes a position and moves the bound to the end of the merge; a BE query may
be displaced to a later slate, and has no quota in a group (R120, R121); its sketch-ready time is bounded by its admission (DESIGN
CHOICE, log 175). -/
def Adm.book (a : Adm) (w : BitVec 256) : Adm :=
  let pin := if rVersionSel w = 1 then some (rVersion w) else none
  if !a.r.lc then match a.s.book a.t pin false with
    | none => { a with ok := false }
    | some n => { a with s := { a.s with sweep := { a.s.sweep with
        beQueue := a.s.sweep.beQueue ++ [{ fn := a.r.fn, tag := a.r.tag, sweep := n }] } } }
  else match a.s.book a.t pin true with
    | none => { a with ok := false }
    | some n =>
      let stages := match a.s.imgOf n with
        | some v => a.s.sweepStages v.img (rScope w) n
        | none => 0
      { a with
        s := { a.s with sweep := { a.s.sweep with bookings := a.s.sweep.bookings ++ [(n, a.r.fn, a.r.tag)] } }
        r := { a.r with work := { a.r.work with sweepNo := some n, mergeBound := a.s.sweepAt n + stages } }
        t := a.s.sweepAt n + stages }

/-! ### Reservation (R39, R105, R224; log 25) -/

/-- HBM bytes of a stream: KV for the maximum context, tree scratch, draft KV. -/
def State.streamBytes (s : State) (m : ModelRes) (l nodes : Nat) : Nat :=
  m.img.kvTok * l + (nodes - 1) * m.img.kvTok
    + (if m.img.draftId = 0 then 0 else match s.modelId m.img.draftId 2 with
      | some d => d.img.kvTok * l
      | none => 0)

/-- Hub SRAM granules of the text-engine state of a text of `b` tokens. -/
def textGranules (b : Nat) : Nat := 1 + ceilDiv (4 * b) 4096

/-- Flash pages of the passages that a request may select (R147). -/
def passagePages (w : BitVec 512) (pmax : Nat) : Nat := kSelMax w * (ceilDiv (16 + 4 * pmax) 4096 + 1)

/-- Hub SRAM granules of a request's merge list and of its flash read buffers: one for each page that it may have read (R27, R39,
R105). -/
def bufferGranules (r : Request) (img : Option IndexImage) : Nat :=
  let w := r.payload.rank
  let pmax := img.elim 0 (·.passageMax)
  (if r.op = 0x01 || r.op = 0x02 then ceilDiv (64 + 16 * rK r.payload.retr) 4096 else 0)
    + (if r.op = 0x01 then kRrN w + kPrefetch w else if r.op = 0x04 then kRrN w else 0)
    + (if r.op = 0x01 || r.op = 0x05 then passagePages w pmax else 0)

/-- Models whose plans a request runs, by stages that run together (R39): encoder, cross-encoder, the stream's model with its
draft. -/
def State.plansOf (s : State) (r : Request) (img : Option IndexImage) (m : Option ModelRes) : List (List ModelRes) :=
  let text := r.op = 0x01 || (r.op = 0x02 && rSketchSrc r.payload.retr = 0) || (r.op = 0x04 && dVec r.desc = 0)
  let enc := if r.op = 0x03 then s.embedder else if text then img.bind fun i => s.encoder i.rotationId else none
  let ce := if (r.op = 0x01 || r.op = 0x04) && kCeN r.payload.rank ≠ 0 then img.bind fun i => s.modelId i.ceImage 4 else none
  let draft := m.bind fun m => if m.img.draftId = 0 then none else s.modelId m.img.draftId 2
  [enc.toList, ce.toList, m.toList ++ draft.toList]

/-- The largest sum over stages of what a plan names. -/
def mostOf (f : ModelImage → Nat) (ps : List (List ModelRes)) : Nat := (ps.map fun l => (l.map fun m => f m.img).sum).foldl max 0

/-- Granules of a request: a stream of maximum context `l` on a model, what the plans name, its text state and its buffers. -/
def State.granulesFor (s : State) (r : Request) (m : Option ModelRes) (l text : Nat) (img : Option IndexImage) : Granules :=
  let ps := s.plansOf r img m
  { hbm := match m with
      | some m => ceilDiv (s.streamBytes m l r.nodes) 2097152
      | none => 0
    region := mostOf (fun i => ceilDiv i.regionBytes 65536) ps
    block := mostOf (fun i => ceilDiv i.blockBytes 16384) ps
    hub := textGranules text + bufferGranules r img }

/-! ### The promise (R33, R35) -/

/-- n of a request that generates: that of its model (R42). -/
def State.stepsFor (s : State) (m : ModelRes) : Nat := if m.img.resident then 1 else if m.nLc ≠ 0 then m.nLc else s.nBe m

/-- The promise record of a request (R33): `bound` is the end of its stage bounds. -/
def promiseOf (s : State) (r : Request) (bound : Time) (kind steps handle : Nat) : Promise :=
  { firstDue := if r.lc then bound + (if kind = 0 then 50000 * steps + 50000 else 100000) else 0
    admitTime := s.admitsAt r
    periodNs := if r.lc && kind = 0 then 50000 * steps else 0
    epoch := s.adm.epoch.toNat, handle := handle, lc := r.lc, kind := kind, steps := if kind = 0 then steps else 0 }

/-! ### Coverage (R295) -/

/-- Coverage mode of a request at admission: 0, 1 shadow, 2 reflect. A fabric route follows function 0 (log 32). -/
def State.coverage (s : State) (r : Request) : Nat :=
  if r.mirror then r.covered else
  let f := if r.origin = 0 then r.fn else 0
  if s.pair.state = .paired && r.lc && !r.mirror && (r.origin ≠ 0 || s.entry (perFn 0xA120 f) ≠ 0xFF) then
    s.entry (perFn 0xA110 f)
  else 0

/-- Bytes with one transport header for every 4,064 of payload (R279, R301). -/
def framed (n : Nat) : Nat := n + 32 * ceilDiv n 4064

/-- The forwarded-input bound of a reflected request (R301). -/
def State.forwarded (s : State) (r : Request) (img : Option IndexImage) : Nat :=
  let w := r.payload.rank
  let k := r.payload.retr
  let query := r.op = 0x01 || r.op = 0x02
  let rank := r.op = 0x01 || r.op = 0x04
  match img with
  | none => 0
  | some i =>
    (if query && rScope k = 1 then (i.members - 1) * framed (64 + 16 * rK k) else 0)
    + (if rank && (!query || rScope k = 1) && 1 < (groupShards i).length then
        framed (16 + kRrN w * (4 + 4 * i.headTokens)) + framed (kSelMax w * (16 + 4 * i.passageMax)) else 0)
    + (if rank then match s.modelId i.ceImage 4 with
        | some m => framed (kCeN w * s.featureBytes m)
        | none => 0 else 0)
    + (if r.op = 0x01 then kTargets w * framed 64 else 0)

/-- Charges the forwarded-input bound over the base steps up to the promise (R297). -/
def Adm.forward (a : Adm) (img : Option IndexImage) : Adm :=
  if a.r.covered = 2 then a.spanned .mirror (a.s.forwarded a.r img) (a.r.promise.firstDue) else a

/-! ### Acceptance -/

/-- Digest of the image that a request runs on: its model's, or the index version's it is bound to at admission. -/
def State.imageDigest (s : State) (r : Request) : Nat :=
  if r.gen then (s.model r.model).elim 0 (·.digest)
  else if r.op ∈ [0x01, 0x02, 0x04, 0x05] then (s.index.live.head?.elim 0 (·.digest))
  else 0

/-- Sends PAIR_ADMIT for a covered admission (R296). -/
def State.sendPairAdmit (s : State) (r : Request) : State :=
  s.emit (.fabric (s.entry 0xA10001) 0x42
    [r.fn, r.tag, r.op, r.promise.admitTime, r.covered, r.promise.handle, s.imageDigest r]
    (pairAdmitWire r.desc r.promise.admitTime r.covered r.fn r.promise.handle (s.imageDigest r)
      (payloadBytes r.op r.payload ++ r.gather.elim [] (fun g => gatherWire g.1) ++ r.update.elim [] (fun u => updateWire u.1)
        ++ r.copy.elim [] copyWire)))

/-- Ends an admission whose own part holds, its granule list written (R105): alone, or with a round over the members of a split model (R108) or with the
pair peer (R296). -/
def State.admitted (s : State) (r0 : Request) (members : Nat) : State :=
  let r := { r0 with gran := s.placeGran r0.gran }
  if r.mirror then s.accept r
  else if 1 < members then
    { s with adm := { s.adm with lastAdmit := r.promise.admitTime }
             reqs := s.reqs ++ [{ r with round := some { split := true, since := s.now } }] }
  else if r.covered ≠ 0 then
    ({ s with adm := { s.adm with lastAdmit := r.promise.admitTime }
              reqs := s.reqs ++ [{ r with round := some { split := false, since := s.now } }] } : State).sendPairAdmit r
  else s.accept r

/-- The conditions that the admitted request meets with every other (R31, R39, R41, R54, R200, R201). `s` is the state with
its charges; the request itself is not yet among the outstanding ones. -/
def State.fits (s : State) (r : Request) : Bool :=
  s.granFits r.gran r.gen
    && (!r.lc || (s.timeHeld && !s.lcClosed && ({ s with reqs := s.reqs ++ [r] } : State).admissionOk))

/-- Every stage found its place and the request fits beside the others. -/
def Adm.admissible (a : Adm) : Bool := a.ok && a.s.fits a.r

/-- An admission that reached its end: refused with nothing left behind (R29), or accepted. `s0` is the state before. -/
def Adm.close (a : Adm) (s0 : State) (members : Nat) : State :=
  if a.admissible then a.s.admitted a.r members else s0.reject a.r .refusedCapacity false

/-- As `Adm.close`, for a request that starts work when it is accepted. -/
def Adm.closeThen (a : Adm) (s0 : State) (start : State → State) : State :=
  if a.admissible then start (a.s.admitted a.r 1) else s0.reject a.r .refusedCapacity false

/-! ### Streams (R42, R205) -/

/-- Sets n_m of a model. -/
def State.setN (s : State) (slot n : Nat) : State :=
  { s with img := { s.img with models := s.img.models.map fun m => if m.slot = slot then { m with nLc := n } else m } }

/-- The values of n that an admission on a model may take, in the order tried (R42): the one in force; for the first LC
stream of a streamed model every value of 1..255, of which the smallest that satisfies R41 is fixed. -/
def State.stepChoices (s : State) (r : Request) (m : ModelRes) : List Nat :=
  if !r.lc then [s.stepsFor m].filter (· ≤ 255)
  else if m.img.resident then [1]
  else if (s.lcOf m.slot).isEmpty then (List.range 255).map (· + 1)
  else [m.nLc]

/-- A request that will generate, as its stages see the ledgers: the steady load of its own stream counts before they look
for free parts (R41, R43; log 84). -/
def Adm.carry (a : Adm) (m : ModelRes) (prompt n : Nat) : Adm :=
  if !a.r.lc then a else
  let r : Request := { a.r with gen := true, model := m.slot, bound := prompt, maxNew := gMaxNew a.r.payload.gen }
  { a with s := { a.s.setN m.slot n with reqs := a.s.reqs ++ [r] } }

/-- The state of an admission without that place-holder of its own request. -/
def Adm.bare (a : Adm) : State := if a.r.lc then { a.s with reqs := a.s.reqs.dropLast } else a.s

/-- Members of a split model besides the lead's own part: W × G (R107). -/
def membersOf (m : ModelRes) : Nat := (m.img.split.map (·.length)).sum

/-- The table entry of an admitted stream (R206, R207). -/
def entryOf (s : State) (r : Request) (gen route : Nat) : SeqEntry :=
  { gen := gen, state := .reserved, lc := r.lc, model := r.model
    role := if r.mirror then (if r.covered = 2 then .reflectPartner else .shadowPartner)
      else if r.covered = 0 then .unpaired else .primary
    steps := r.promise.steps, depth := 1, nodes := 1
    constraint := bits r.payload.opts.toNat 223 208, maxNew := r.maxNew, seed := gSeed r.payload.gen
    glist := Config.freeOffset s.freeCtr, params := Config.freeOffset (s.freeCtr + 1)
    firstDue := r.promise.firstDue, route := route }

/-- Gives the request its slot, its n and its promise, and ends the admission of a stream (R33, R42, R43, R205); none when
something of it does not fit. The prompt bound is `prompt`; `text` sizes the text state. -/
def Adm.stream (a : Adm) (s0 : State) (m : ModelRes) (prompt text route : Nat) (img : Option IndexImage) (n : Nat) :
    Option State :=
  let r0 : Request := { a.r with
    gen := true, model := m.slot, bound := prompt, maxNew := gMaxNew a.r.payload.gen
    nodes := min (gNodes a.r.payload.gen) (a.s.entry 0x420003) }
  let r1 := { r0 with gran := a.s.granulesFor r0 (some m) (prompt + r0.maxNew) text img }
  let x := ({ a with r := r1 }).prefill m prompt
  let s2 := x.1.bare
  let want := if a.r.mirror then some (a.r.promise.handle / 65536) else s2.nextSlot
  match want with
  | some slot =>
    let gen := if a.r.mirror then a.r.promise.handle % 65536 else nextGen (s2.slot slot).gen
    let due := x.1.t + (if 1 < membersOf m then 100000 else 0)
    let r2 := { x.1.r with promise := promiseOf s0 r1 due 0 n (handleOf slot gen) }
    let r3 := { r2 with covered := s2.coverage r2, nPf := x.2 }
    let f := ({ x.1 with s := s2, r := r3 }).forward img
    if f.ok && f.s.fits f.r && (s0.slot slot).state = .free then
      let e := entryOf f.s f.r gen route
      let s3 := (f.s.takeSlot slot e).draw.draw
      some (({ s3 with seq := { s3.seq with streams := s3.seq.streams ++
          [{ slot := slot, fn := f.r.fn, tag := f.r.tag, modelId := m.img.modelId }] } } : State).admitted f.r (membersOf m))
    else none
  | none => none

/-- The admission of a stream: with the first n that it succeeds with, else refused (R41, R42). -/
def State.admitStream (s : State) (r : Request) (m : ModelRes) (go : Nat → Option State) : State :=
  match (s.stepChoices r m).findSome? go with
  | some t => t
  | none => s.reject r .refusedCapacity false

/-- An admission with one result (KIND 1) at its end: granules, promise, coverage. -/
def Adm.asResult (a : Adm) (s0 : State) (text : Nat) (img : Option IndexImage) : Adm :=
  let r1 := { a.r with gran := a.s.granulesFor a.r none 0 text img, promise := promiseOf s0 a.r a.t 1 0 0 }
  let r2 := { r1 with covered := a.s.coverage r1 }
  ({ a with r := r2 } : Adm).forward img

/-- An admission of KIND 1 without text state at its end: gathers, updates, copies (R33, R295). -/
def Adm.asPlain (a : Adm) (s0 : State) : Adm :=
  let r1 := { a.r with promise := promiseOf s0 a.r a.t 1 0 0 }
  { a with r := { r1 with covered := a.s.coverage r1 } }

/-- Ends the admission of such a request. -/
def Adm.plain (a : Adm) (s0 : State) : State := (a.asPlain s0).close s0 1

/-! ### Rows -/

/-- Vocabularies that a text is tokenized with: of the template and of the encoder (R185). -/
def vocabCount (tpl : Option TemplateRes) (enc : Option ModelRes) : Nat :=
  match tpl, enc with
  | some m, some e => if m.img.vocab = e.img.vocab then 1 else 2
  | _, _ => 1

/-- Copies of images that a request binds at admission (R161, R178, R198, R236). -/
def State.bindCopies (s : State) (r : Request) (p : Payload) : Request :=
  let tpl := if r.op = 0x01 || r.op = 0x04 || r.op = 0x05 then s.template (kTemplate p.rank) else none
  let cl := if r.op = 0x06 || (r.op = 0x01 && kTargets p.rank = 0) then s.clist (oConstraint p.opts) else none
  let model := if r.op = 0x06 || (r.op = 0x01 && kTargets p.rank = 0) then s.modelId (gModel p.gen) 1 else none
  let enc := if r.op = 0x03 then s.embedder
    else if r.op = 0x01 || r.op = 0x02 then
      (match s.boundVer p.retr with
        | some v => s.encoder v.img.rotationId
        | none => none)
    else if r.op = 0x04 then
      (match s.index.live.head? with
        | some v => s.encoder v.img.rotationId
        | none => none)
    else none
  let ids := (tpl.toList.map (·.img.vocab)) ++ (model.toList.map (·.img.vocab)) ++ (enc.toList.map (·.img.vocab))
  { r with
    vocabs := ids.filterMap fun i => (s.vocab i).map fun v => (i, v.copy_)
    template := tpl.elim 0 (·.copy_)
    clist := cl.elim 0 (·.copy_) }

/-- A request at the start of its admission: its bounds add to ADMIT_TIME (R43). -/
def startAdm (s : State) (r : Request) (p : Payload) (stage : Nat) : Adm :=
  { s := s, r := { s.bindCopies r p with payload := p, work := { r.work with stage := stage } }, t := s.admitsAt r }

/-- Runs the checks, then the admission. -/
def State.checked (s : State) (r : Request) (c : Option Status) (k : State) : State :=
  match c with
  | some st => s.reject r st (st ≠ .accessDenied)
  | none => k

/-- Stages 2 to 12 of an ASK on an index version (R24, R168). -/
def State.askStages (s : State) (r : Request) (x : Fetched) (p : Payload) (v : IndexVer) (a0 : Adm) : Adm :=
  let tpl := s.template (kTemplate p.rank)
  let enc := s.encoder v.img.rotationId
  let rem := remoteTerm s v.img (rScope p.retr)
  let a := ((((a0.tokenize (vocabCount tpl enc) (dTextLen x.desc)).embed enc (dTextLen x.desc)).book
    p.retr).rerank p.rank 0 rem).cross p.rank (s.modelId v.img.ceImage 4) v.img.headTokens
  ((if r.lc then a.wait (s.entry 0x310003) else a).fetch (kSelMax p.rank) 0 v.img.passageMax rem).pack (kBudget p.rank)

/-- The admission of an ASK that hands its prompt off (R164). -/
def State.askAdm (s : State) (r : Request) (x : Fetched) (p : Payload) (v : IndexVer) : Adm :=
  ((s.askStages r x p v (startAdm s r p 2)).handoff ([kTarget0 p.rank, kTarget1 p.rank].take (kTargets p.rank))
    (kBudget p.rank)).asResult s (dTextLen x.desc) (some v.img)

/-- An ASK that generates here, with n base steps to a model step. -/
def State.askStream (s : State) (r : Request) (x : Fetched) (p : Payload) (v : IndexVer) (m : ModelRes) (n : Nat) :
    Option State :=
  (s.askStages r x p v ((startAdm s r p 2).carry m (kBudget p.rank) n)).stream s m (kBudget p.rank) (dTextLen x.desc) r.fn
    (some v.img) n

/-- ASK (R24, R43, R164, R168). -/
def State.admitAsk (s : State) (r : Request) (x : Fetched) (p : Payload) : State :=
  match s.boundVer p.retr with
  | none => s
  | some v =>
    if kTargets p.rank = 0 then
      match s.modelId (gModel p.gen) 1 with
      | some m => s.admitStream r m (s.askStream r x p v m)
      | none => s
    else (s.askAdm r x p v).close s 1

def execAsk (t : Nat) (x : Fetched) (host : List Byte) (s : State) : Host.Outcome State Fault Refusal :=
  let p := cutPayload x host
  .next (withFetch 0x01 x false (s.tick t) fun r s => s.checked r (s.checkAsk r x p) (s.admitAsk r x p))

/-- RETRIEVE (R44, R45, R116, R117). -/
def State.retrieveAdm (s : State) (r : Request) (x : Fetched) (p : Payload) : Adm :=
  let v := (s.boundVer p.retr).map (·.img)
  let enc := match v with
    | some i => s.encoder i.rotationId
    | none => none
  if rSketchSrc p.retr = 1 then
    let a := startAdm s r p 5
    let r1 := { a.r with work := { a.r.work with sketch := ofLe p.sketch, sketchReady := true } }
    (({ a with r := r1 } : Adm).book p.retr).asResult s 0 v
  else
    ((((startAdm s r p 2).tokenize 1 (dTextLen x.desc)).embed enc (dTextLen x.desc)).book p.retr).asResult s
      (dTextLen x.desc) v

/-- The admission of a RETRIEVE ends. -/
def State.admitRetrieve (s : State) (r : Request) (x : Fetched) (p : Payload) : State := (s.retrieveAdm r x p).close s 1

def execRetrieve (t : Nat) (x : Fetched) (host : List Byte) (s : State) : Host.Outcome State Fault Refusal :=
  let p := cutPayload x host
  .next (withFetch 0x02 x false (s.tick t) fun r s => s.checked r (s.checkRetrieve r x p) (s.admitRetrieve r x p))

/-- EMBED (R24; log 20). -/
def State.embedAdm (s : State) (r : Request) (x : Fetched) (p : Payload) : Adm :=
  (((startAdm s r p 2).tokenize 1 (dTextLen x.desc)).embed s.embedder (dTextLen x.desc)).asResult s (dTextLen x.desc) none

/-- The admission of an EMBED ends. -/
def State.admitEmbed (s : State) (r : Request) (x : Fetched) (p : Payload) : State := (s.embedAdm r x p).close s 1

def execEmbed (t : Nat) (x : Fetched) (host : List Byte) (s : State) : Host.Outcome State Fault Refusal :=
  let p := cutPayload x host
  .next (withFetch 0x03 x false (s.tick t) fun r s => s.checked r (s.checkEmbed r x p) (s.admitEmbed r x p))

/-- Candidates as a request gives them. -/
def givenCands (ids : List (BitVec 64)) : List Cand := ids.map fun i => { id := i.toNat }

/-- Given IDs of other members' shards (R147, R168). -/
def othersOf (i : IndexImage) (ids : List (BitVec 64)) : Nat := (ids.filter fun x => x.toNat / 2 ^ 48 ≠ i.shardId).length

/-- RERANK (R169): stages 8 to 10 on the given candidates. -/
def State.rerankAdm (s : State) (r : Request) (x : Fetched) (p : Payload) (v : IndexVer) : Adm :=
  let q : Payload := { p with rank := rerankParams p.rank (dIdCount x.desc) }
  let enc := s.encoder v.img.rotationId
  let others := othersOf v.img q.ids
  let rem := if others = 0 then 0 else s.entry 0x310001
  let a := startAdm s r q (if dVec x.desc = 1 then 8 else 2)
  let a1 := { a with r := { a.r with work := { a.r.work with
    cands := givenCands q.ids, version := v.img.version, qvec := p.vec.map int8Val } } }
  let a2 := if dVec x.desc = 1 then a1
    else (a1.tokenize (vocabCount (s.template (kTemplate p.rank)) enc) (dTextLen x.desc)).embed enc (dTextLen x.desc)
  let a3 := (a2.rerank q.rank others rem).cross q.rank (s.modelId v.img.ceImage 4) v.img.headTokens
  (if r.lc then a3.wait (s.entry 0x310003) else a3).asResult s (dTextLen x.desc) (some v.img)

/-- The admission of a RERANK ends. -/
def State.admitRerank (s : State) (r : Request) (x : Fetched) (p : Payload) : State :=
  match s.index.live.head? with
  | none => s
  | some v => (s.rerankAdm r x p v).closeThen s fun s => s.startRerank r.fn r.tag

def execRerank (t : Nat) (x : Fetched) (host : List Byte) (s : State) : Host.Outcome State Fault Refusal :=
  let p := cutPayload x host
  .next (withFetch 0x04 x false (s.tick t) fun r s => s.checked r (s.checkRerank r x p) (s.admitRerank r x p))

/-- PACK (R170): stages 11 and 12 on the given selection. -/
def State.packAdm (s : State) (r : Request) (x : Fetched) (p : Payload) (v : IndexVer) : Adm :=
  let a := startAdm s r p 2
  let others := othersOf v.img p.ids
  let rem := if others = 0 then 0 else s.entry 0x310001
  let cs := (givenCands p.ids).map fun c => { c with selected := true }
  let a1 := { a with r := { a.r with work := { a.r.work with cands := cs, version := v.img.version } } }
  (((a1.tokenize 1 (dTextLen x.desc)).fetch (kSelMax p.rank) others v.img.passageMax rem).pack (kBudget p.rank)).asResult s
    (dTextLen x.desc) (some v.img)

/-- The admission of a PACK ends. -/
def State.admitPack (s : State) (r : Request) (x : Fetched) (p : Payload) : State :=
  match s.index.live.head? with
  | none => s
  | some v => (s.packAdm r x p v).close s 1

def execPack (t : Nat) (x : Fetched) (host : List Byte) (s : State) : Host.Outcome State Fault Refusal :=
  let p := cutPayload x host
  .next (withFetch 0x05 x false (s.tick t) fun r s => s.checked r (s.checkPack r x p) (s.admitPack r x p))

/-- GENERATE with n base steps to a model step (R43, R205, R209). -/
def State.generateStream (s : State) (r : Request) (p : Payload) (m : ModelRes) (n : Nat) : Option State :=
  let a := (startAdm s r p (if gSrc p.gen = 1 then 2 else 20)).carry m (gCount p.gen) n
  (if gSrc p.gen = 1 then a.tokenize 1 (gCount p.gen) else a).stream s m (gCount p.gen)
    (if gSrc p.gen = 1 then gCount p.gen else 0) r.fn none n

/-- The admission of a GENERATE. -/
def State.admitGenerate (s : State) (r : Request) (p : Payload) : State :=
  match s.modelId (gModel p.gen) 1 with
  | none => s
  | some m => s.admitStream r m (s.generateStream r p m)

def execGenerate (t : Nat) (x : Fetched) (host : List Byte) (s : State) : Host.Outcome State Fault Refusal :=
  let p := cutPayload x host
  .next (withFetch 0x06 x false (s.tick t) fun r s => s.checked r (s.checkGenerate r x p) (s.admitGenerate r p))

/-! ### Rounds of an admission (R108, R296) -/

/-- Refuses a request whose round is open: nothing of it remains (R29, R108, R296). -/
def State.refuseRound (s : State) (r : Request) : State :=
  ((s.release r).reject r .refusedCapacity false).endCancels r true

/-- Completes a tentative admission: the promise record and the ADMIT entry (R108, R296); an LC one is refused while AP refuses them
(R54). -/
def State.acceptRound (s : State) (r : Request) : State :=
  if r.lc && s.lcClosed then s.refuseRound r else
  let r1 := { r with round := none }
  let s1 : State := { s with reqs := s.reqs.map fun q => if q.fn = r.fn && q.tag = r.tag then r1 else q }
  (s1.count 0x200020 1).complete r1 { status := .done, final := false } true

/-- n of group g: the largest over its members, from the answers and the lead's own n (R107). -/
def groupN (own : Nat) (ans : List (Nat × Nat × Nat)) (g : Nat) : Nat :=
  (ans.filter fun a => a.1 = g).foldl (fun m a => max m a.2.2) (if g = 0 then own else 0)

/-- STEPS_PER_TOKEN of a split model (R107). -/
def splitSteps (m : ModelRes) (own : Nat) (ans : List (Nat × Nat × Nat)) : Nat :=
  ((List.range m.img.split.length).map (groupN own ans)).sum + m.img.xSteps

/-- A member's answer: a refusal refuses; the last confirmation completes, with the sum of R107 as n (R107, R108). -/
def State.memberAnswer (s : State) (f tag group width : Nat) (ok : Bool) (n : Nat) : State :=
  match s.req f tag with
  | none => s
  | some r =>
    match r.round, s.model r.model with
    | some rd, some m =>
      if !rd.split then s
      else if !ok then s.refuseRound r
      else
        let ans := (rd.answers.filter fun a => !(a.1 = group && a.2.1 = width)) ++ [(group, width, n)]
        if ans.length + 1 < membersOf m then s.modReq f tag fun r => { r with round := some { rd with answers := ans } }
        else
          let k := splitSteps m r.promise.steps ans
          if 255 < k then s.refuseRound r
          else
            let own := r.promise.steps
            let pr := { r.promise with
              steps := k
              periodNs := if r.lc then 50000 * k else 0
              firstDue := if r.lc then r.promise.firstDue + 50000 * k - 50000 * own else 0 }
            let r1 := { r with promise := pr }
            let s1 := s.modSlot (pr.handle / 65536) fun e => { e with steps := k, firstDue := pr.firstDue }
            if r.covered ≠ 0 && !s.lcClosed then
              ((s1.modReq f tag fun r => { r with promise := pr, round := some { split := false, since := s1.now } })).sendPairAdmit r1
            else s1.acceptRound r1
    | _, _ => s

def execSplitMemberAnswer (t f tag group width : Nat) (ok : Bool) (n : Nat) (s : State) : Host.Outcome State Fault Refusal :=
  .next ((s.tick t).memberAnswer f tag group width ok n)

/-- No answer within 2 base steps: the lead refuses (R108). -/
def State.memberTimeout (s : State) (f tag : Nat) : State :=
  match s.req f tag with
  | none => s
  | some r => match r.round with
    | some rd => if rd.split && rd.since + 100000 ≤ s.now then s.refuseRound r else s
    | none => s

def execSplitMemberTimeout (t f tag : Nat) (s : State) : Host.Outcome State Fault Refusal :=
  .next ((s.tick t).memberTimeout f tag)

end Sys2Proof.Machine
end

