-- ==== Sys2Proof/Machine/Tiles.lean ====
section
/-!
DEFINITION. Tiles and strips: operand pairs (R60), header (R88), sizes (R61), packing (R66), the layout of a body and of a row
(R89, R90), compression (R91), and the format checks of R386.
-/
namespace Sys2Proof.Machine

def tlFormat (h : Nat) : Nat := bits h 127 120
def tlSubfmt (h : Nat) : Nat := bits h 119 118
def tlComp (h : Nat) : Nat := bits h 117 116
def tlOrient (h : Nat) : Nat := bits h 115 115
def tlRsvd (h : Nat) : Nat := bits h 114 112
def tlK (h : Nat) : Nat := bits h 111 96
def tlN (h : Nat) : Nat := bits h 95 80
def tlStored (h : Nat) : Nat := bits h 79 48
def tlScaleOffset (h : Nat) : Nat := bits h 47 32
def tlId (h : Nat) : Nat := bits h 31 0

/-- K of a full array for an operand pair; none: the pair is not in R60's table. A quarter takes half of it. -/
def pairK (a b : ElemFmt) : Option Nat :=
  match a, b with
  | .bf16, .bf16 => some 16
  | .int8, .int8 => some 32
  | .bf16, _ | _, .bf16 | .int8, _ | _, .int8 => none
  | .e2m1, .e2m1 => some 128
  | .e2m1, _ | _, .e2m1 => some 64
  | _, _ => some 32

/-- Bits of an element (R65). -/
def elemBits : ElemFmt → Nat
  | .bf16 => 16 | .int8 | .e4m3 | .e5m2 => 8 | .e3m2 | .e2m3 => 6 | .e2m1 => 4

/-- The format shares a scale among 32 elements. -/
def elemScaled : ElemFmt → Bool
  | .bf16 | .int8 => false
  | _ => true

/-- The element format that FORMAT and SUBFMT of a header name (R67, R88). -/
def tileElem (h : Nat) : Option ElemFmt :=
  match tlFormat h, tlSubfmt h with
  | 1, _ => some .bf16 | 2, _ => some .int8 | 3, 0 => some .e4m3 | 3, 1 => some .e5m2
  | 4, 0 => some .e3m2 | 4, 1 => some .e2m3 | 5, _ => some .e2m1
  | _, _ => none

/-- `n` bits from bit `at_` on of bytes packed little-endian (R66). -/
def bitsAt (bs : List Byte) (at_ n : Nat) : Nat := ofLe ((bs.drop (at_ / 8)).take 3) / 2 ^ (at_ % 8) % 2 ^ n

/-- Bytes of a streamed row of `k` elements: elements first, then a scale for each 32 of them (R61, R90). -/
def stripBytes (f : ElemFmt) (k : Nat) : Nat := k * elemBits f / 8 + if elemScaled f then k / 32 else 0

/-- Element of a row. -/
def stripElem (f : ElemFmt) (bs : List Byte) (i : Nat) : Nat := bitsAt bs (i * elemBits f) (elemBits f)

/-- Scale of block `b` of a row of `k` elements. -/
def stripScale (f : ElemFmt) (k : Nat) (bs : List Byte) (b : Nat) : Nat := (bs.getD (k * elemBits f / 8 + b) 0).toNat

/-- Bits of an element of a FORMAT code (R65, R88). -/
def tileElemBits (fmt : Nat) : Nat :=
  match fmt with
  | 1 => 16 | 2 => 8 | 3 => 8 | 4 => 6 | 5 => 4 | _ => 32

/-- The format carries a scale plane: MXFP8, MXFP6, MXFP4. -/
def tileScaled (fmt : Nat) : Bool := fmt = 3 || fmt = 4 || fmt = 5

/-- K of a full array for a format, against the partners that R60 allows; a quarter takes half of it. -/
def tileKs (fmt : Nat) : List Nat :=
  match fmt with
  | 1 => [16] | 2 => [32] | 3 => [32, 64] | 4 => [32, 64] | 5 => [64, 128] | _ => []

/-- K and N fit together: a full tile, or a quarter of one. FP32 tiles feed the vector lane, and only R88's range binds them. -/
def tileShapeOk (fmt k n : Nat) : Bool :=
  if fmt = 6 then 8 ≤ k && k ≤ 128 && (n = 16 || n = 32)
  else (n = 32 && (tileKs fmt).contains k) || (n = 16 && (tileKs fmt).contains (2 * k))

/-- Bytes of the element plane (R61, R89). -/
def tileElemBytes (h : Nat) : Nat := tlK h * tlN h * tileElemBits (tlFormat h) / 8

/-- 32-element blocks of the element plane, and of the scale plane in a format that has one (R89). -/
def tileBlocks (h : Nat) : Nat := tlK h * tlN h / 32

/-- Bytes of the scale plane: one for each block. -/
def tileScaleBytes (h : Nat) : Nat := if tileScaled (tlFormat h) then tileBlocks h else 0

/-- Bytes of the uncompressed body (R61). -/
def tileBodyBytes (h : Nat) : Nat := tileElemBytes h + tileScaleBytes h

/-- A header whose fields hold what R88 admits. -/
def tileHeaderOk (h : Nat) : Bool :=
  1 ≤ tlFormat h && tlFormat h ≤ 6
    && (if tlFormat h = 3 || tlFormat h = 4 then tlSubfmt h ≤ 1 else tlSubfmt h = 0)
    && tlRsvd h = 0 && tileShapeOk (tlFormat h) (tlK h) (tlN h)
    && tlScaleOffset h = (if tileScaled (tlFormat h) then tileElemBytes h else 0)
    && (tlOrient h = 0 || !tileScaled (tlFormat h))

/-- Element (k, c) of an uncompressed body: its offset in bits from the body's start (R89). -/
def tileElemAt (h k c : Nat) : Nat :=
  let b := tileElemBits (tlFormat h)
  if tlOrient h = 1 then (k * tlN h + c) * b
  else if tlK h < 32 then (c * tlK h + k) * b
  else ((c * (tlK h / 32) + k / 32) * 32 + k % 32) * b

/-- Code of element (k, c) of a body. -/
def tileCode (h : Nat) (body : List Byte) (k c : Nat) : Nat := bitsAt body (tileElemAt h k c) (min 16 (tileElemBits (tlFormat h)))

/-- Scale `i` of the scale plane of a body. -/
def tileScale (h : Nat) (body : List Byte) (i : Nat) : Nat := (body.getD (tlScaleOffset h + i) 0).toNat

/-- The header with the other ORIENT. -/
def turnHeader (h : Nat) : Nat := h + 2 ^ 115 - tlOrient h * 2 ^ 116

/-- A non-MX body in the order of the other ORIENT (R89, R92). -/
def transposeBody (h : Nat) (body : List Byte) : List Byte :=
  let size := tileElemBits (tlFormat h) / 8
  (List.range (tlK h * tlN h)).flatMap fun i =>
    let at_ := if tlOrient h = 0 then tileElemAt h (i / tlN h) (i % tlN h) else tileElemAt h (i % tlK h) (i / tlK h)
    (body.drop (at_ / 8)).take size

/-- The header of a tile as it stands RAW: COMP 0, STORED_BYTES the whole body. -/
def rawHeader (h : Nat) : Nat := h - tlComp h * 2 ^ 116 - tlStored h * 2 ^ 48 + tileBodyBytes h * 2 ^ 48

/-- The blocks of one presence word: their bytes, how many are stored, and what is left of the stored bytes (R91). -/
def zblkWord : Nat → Nat → Nat → List Byte → Option (List Byte × List Bool × List Byte)
  | 0, _, _, bs => some ([], [], bs)
  | n + 1, size, w, bs =>
    if w % 2 = 1 then
      if bs.length < size then none
      else (zblkWord n size (w / 2) (bs.drop size)).map fun r => (bs.take size ++ r.1, true :: r.2.1, r.2.2)
    else (zblkWord n size (w / 2) bs).map fun r => (List.replicate size 0 ++ r.1, false :: r.2.1, r.2.2)

/-- ZBLK: for every 64 blocks a presence word, then the stored blocks: element plane, presence by block, the rest (R91). -/
def zblk : Nat → Nat → Nat → List Byte → Option (List Byte × List Bool × List Byte)
  | 0, _, _, bs => some ([], [], bs)
  | fuel + 1, n, size, bs =>
    if n = 0 then some ([], [], bs)
    else if bs.length < 8 then none
    else match zblkWord (min 64 n) size (ofLe (bs.take 8)) (bs.drop 8) with
      | none => none
      | some r => (zblk fuel (n - min 64 n) size r.2.2).map fun q => (r.1 ++ q.1, r.2.1 ++ q.2.1, q.2.2)

/-- SRUN: pairs of a count less 1 and a scale: `n` scales and the rest; none when a run passes the plane's end (R91). -/
def srun : Nat → Nat → List Byte → Option (List Byte × List Byte)
  | 0, n, bs => if n = 0 then some ([], bs) else none
  | fuel + 1, n, bs =>
    if n = 0 then some ([], bs)
    else match bs with
      | c :: v :: rest =>
        if n < c.toNat + 1 then none
        else (srun fuel (n - (c.toNat + 1)) rest).map fun r => (List.replicate (c.toNat + 1) v ++ r.1, r.2)
      | _ => none

/-- Scales where only those of stored blocks are there: an absent block has scale 0. -/
def spreadScales : List Bool → List Byte → Option (List Byte × List Byte)
  | [], bs => some ([], bs)
  | false :: ps, bs => (spreadScales ps bs).map fun r => (0 :: r.1, r.2)
  | true :: ps, b :: bs => (spreadScales ps bs).map fun r => (b :: r.1, r.2)
  | true :: _, [] => none

/-- Takes `n` bytes, when they are there. -/
def takeBytes (n : Nat) (bs : List Byte) : Option (List Byte × List Byte) :=
  if bs.length < n then none else some (bs.take n, bs.drop n)

/-- The RAW body of a stored body, and the stored bytes left over (R89, R91; log 156). -/
def decodeBody (h : Nat) (bs : List Byte) : Option (List Byte × List Byte) :=
  let n := tileBlocks h
  let size := tileElemBits (tlFormat h) * 4
  let scaled := tileScaled (tlFormat h)
  let elems : Option (List Byte × List Bool × List Byte) :=
    if tlComp h % 2 = 1 then zblk n n size bs
    else (takeBytes (tileElemBytes h) bs).map fun r => (r.1, List.replicate n true, r.2)
  match elems with
  | none => none
  | some e =>
    if !scaled then some (e.1, e.2.2)
    else (if 2 ≤ tlComp h then srun n n e.2.2 else spreadScales e.2.1 e.2.2).map fun r => (e.1 ++ r.1, r.2)

/-- A copy is whole: it decodes, to the implied length, and STORED_BYTES is what the decoder consumed (R91). -/
def copyOk (h : Nat) (body : List Byte) : Bool :=
  tileHeaderOk h && (match decodeBody h body with
    | some r => r.1.length = tileBodyBytes h && tlStored h + r.2.length = body.length
    | none => false)

/-- A loader takes the tile: its header is there, valid, of ORIENT 0, and not FP32 (R88, R89). -/
def loaderOk (h : Option (BitVec 128)) : Bool :=
  match h with
  | some w => tileHeaderOk w.toNat && tlOrient w.toNat = 0 && tlFormat w.toNat ≠ 6
  | none => false

end Sys2Proof.Machine
end

