-- ==== Sys2Proof/Machine/Images.lean ====
section
/-!
DEFINITION. Loading of images: MODEL_LOAD, MODEL_SWAP, INDEX_PUBLISH, their checks, their ends, stored images (R40, R60, R70,
R87, R93, R101, R111, R114, R115, R135..R138, R144, R161, R177, R178, R194..R198, R211, R235..R237, R360..R362, R374, R383,
R419, R422, R430).
-/
namespace Sys2Proof.Machine

/-! ### The block of R235 -/

def lSource (w : BitVec 256) : Nat := bits w.toNat 255 248
def lKeep (w : BitVec 256) : Bool := bits w.toNat 247 247 = 1
def lDefer (w : BitVec 256) : Bool := bits w.toNat 246 246 = 1
def lImageId (w : BitVec 256) : Nat := bits w.toNat 223 192
def lVictim (w : BitVec 256) : Nat := bits w.toNat 191 160
def lLength (w : BitVec 256) : Nat := bits w.toNat 127 64

/-- Fields of the block in their ranges for an opcode (R135, R235, R320). -/
def loadBlkOk (op : Nat) (w : BitVec 256) : Bool :=
  lSource w ≤ 1 && bits w.toNat 245 224 = 0 && bits w.toNat 159 128 = 0 && bits w.toNat 63 0 = 0
    && lLength w ≠ 2 ^ 64 - 1
    && (if lSource w = 0 then lImageId w = 0 else !lKeep w && lLength w = 0)
    && (op = 0x21 || (!lDefer w && lVictim w = 0))
    && (op ≠ 0x22 || lSource w = 1 || lKeep w)

/-! ### Signatures (R419, R422) -/

/-- Owner keys held in a list of 2,592-byte keys (R434). -/
def ownerKeys (bs : List Byte) : Nat := bs.length / 2592

/-- The lifecycle accepts an image signer (R419). -/
def State.imageSigner (s : State) (g : Signer) : Bool :=
  match s.sec.life, g with
  | .blank, .development => true
  | .opened, .development => true
  | .opened, .owner k => k < ownerKeys s.sec.imageKeys
  | .sealed, .owner k => k < ownerKeys s.sec.imageKeys
  | _, _ => false

/-- Signature and digest of an image; a constraint list carries none (R236, R422). -/
def State.sigOk (s : State) (x : SignedImage) : Bool :=
  match x.img with
  | .clist _ => true
  | _ => x.digestOk && s.imageSigner x.signer

/-! ### Flash room (R360, R362, R374) -/

/-- Logical blocks of an object of some bytes. -/
def blocksOf (bytes : Nat) : Nat := max 1 (ceilDiv bytes (24576 * 4096))

/-- Blocks that stores in progress will take. -/
def State.blocksDue (s : State) : Nat :=
  (s.reqs.map fun r => match r.load with
    | some l => if l.keep && !l.stored then blocksOf l.image.bytes else 0
    | none => 0).sum

/-- Free logical blocks (0x6100:0x01). -/
def State.blocksFree (s : State) : Nat := partBlocks s.mod.part24 - s.flash.map.length

/-- A store finds room above the spare floor. -/
def State.roomFor (s : State) (bytes : Nat) : Bool :=
  blocksOf bytes + s.blocksDue ≤ s.blocksFree && s.entry 0x610007 ≤ s.spares

/-- A data key is drawn at its first use (R423). -/
def State.useKey (s : State) (k : Nat) : State :=
  if (getKey s.sec.slots k).isSome then s
  else ({ s with sec := { s.sec with slots := setKey s.sec.slots k s.drawn } } : State).draw

/-- Stores an image under its function's key: blocks, superblocks, the lowest free IMAGE_ID (R362, R372, R373). -/
def State.store (s0 : State) (x : SignedImage) (f : Nat) : State × Nat :=
  let s := (s0.useKey 0).useKey (f + 1)
  let n := blocksOf x.bytes
  let used := s.flash.map.map (·.block)
  let blocks := takeFree used (used.length + n) n 0
  let ids := s.flash.stored.map (·.id)
  let id := (takeFree ids (ids.length + 1) 1 1).headD 0
  let units := ceilDiv x.bytes 4096
  let fl := blocks.zipIdx.foldl (fun (fl : FlashState) p => fl.storeBlock (f + 1) p.1 (min 24576 (units - 24576 * p.2))) s.flash
  ({ s with flash := { fl.mapPage with
      stored := s.flash.stored ++ [{ id := id, image := x, fn := f, at_ := s.now, blocks := blocks }] } }, id)

/-- A stored image that a request of function `f` may name (R362). -/
def State.storedFor (s : State) (id f : Nat) : Option Stored :=
  s.flash.stored.find? fun x => x.id = id && (x.fn = f || x.fn = 0)

/-! ### Room in HBM -/

/-- Loads in progress. -/
def State.loads (s : State) : List LoadWork := s.reqs.filterMap (·.load)

/-- Models among the loads in progress. -/
def State.modelLoads (s : State) : List ModelImage := s.loads.filterMap fun l => match l.image.img with
  | .model m => some m
  | _ => none

/-- Bytes of an area with parity, in whole stripes (R102). -/
def parityBytes (n : Nat) : Nat := ceilDiv n 2560 * 3072

/-- Bytes of an area over the dies in service (R101). -/
def State.areaBytes (s : State) (a : Nat) : Nat := (s.pools.areas.map fun d => d.getD a 0).sum

/-- Image-area bytes taken. -/
def State.imageUsed (s : State) : Nat :=
  (s.img.models.map fun m => parityBytes m.img.imageBytes).sum + (s.modelLoads.map fun m => parityBytes m.imageBytes).sum

/-- Resident weight bytes taken, without those of a MODEL_ID (R87). -/
def State.cellsUsed (s : State) (victim : Nat) : Nat :=
  ((s.img.models.filter fun m => m.img.resident && m.img.modelId ≠ victim).map (·.img.cellBytes)).sum
    + ((s.modelLoads.filter (·.resident)).map (·.cellBytes)).sum

/-- Model slots taken, without those of a MODEL_ID. -/
def State.slotsUsed (s : State) (victim : Nat) : Nat :=
  (s.img.models.filter fun m => m.img.modelId ≠ victim).length + s.modelLoads.length

/-- Resident space of the module, and of one cell (R87, R211). -/
def cellSpace : Nat := 1476395008
def oneCellSpace : Nat := 120149

/-- A model's tiles leave every cell within its resident space (R87). -/
def State.cellsHold (s : State) (m : ModelImage) (victim : Nat) : Bool :=
  let ts := m.tiles ++ ((s.img.models.filter fun x => x.img.resident && x.img.modelId ≠ victim).flatMap fun x => x.img.tiles)
  !m.resident || m.tiles.all fun t =>
    ((ts.filter fun u => u.cell = t.cell).map fun u => tileBodyBytes u.header.toNat).sum ≤ oneCellSpace

/-! ### Checks of a model image -/

/-- Operand pairs of R60. -/
def pairOk (a b : ElemFmt) : Bool := (pairK a b).isSome

/-- What a plan may ask of the arrays and copies (R60, R70, R93, R383). -/
def planOk (o : PlanOp) : Bool := pairOk o.fmtA o.fmtB && o.reduction ≤ 1048576 && !o.transposeMx && !o.longLived

/-- Header fields in the ranges of R40 and R211 that no other image decides. -/
def modelFields (m : ModelImage) : Bool :=
  1 ≤ m.modelId && m.modelId ≤ 0xFFFFFFFE && 1 ≤ m.kind && m.kind ≤ 4 && (m.resident || m.kind = 1)
    && 1 ≤ m.vocab && m.vocab ≤ 0xFFFFFFFE && m.contextMax < 2 ^ 32 && (m.kind = 1 || m.draftId = 0)
    && 1 ≤ m.specDepthMax && m.specDepthMax ≤ 8 && (m.resident || m.specDepthMax = 1)
    && 1 ≤ m.batchRows && m.batchRows ≤ 4096
    && m.endCount ≤ 4 && (m.kind = 1 || m.endCount = 0) && m.endTokens.length ≤ 4
    && (m.endTokens.drop m.endCount).all (· = 0#32)
    && (if m.kind ≤ 2 then fFinite m.logitNorm && 0 ≤ fKey m.logitNorm else m.logitNorm = 0#32)
    && (if m.kind = 3 then 1 ≤ m.embedDim && m.embedDim ≤ 65535 else m.embedDim = 0)
    && m.sliceHs ≤ 32000 && (!m.resident || m.tMinHs ≤ 80000)
    && m.features.length ≤ 8 && (m.split.map (·.length)).sum ≤ 64
    && (m.split.all fun g => g.length = (m.split.headD []).length) && m.ops.all planOk

/-- Its end tokens lie below a token count. -/
def endTokensOk (m : ModelImage) (n : Nat) : Bool :=
  (List.range m.endCount).all fun i => (m.endTokens.getD i 0#32).toNat < n

/-- What a plan's copies hold of region stores and block scratch is free (R39, R105). -/
def State.plansFit (s : State) (m : ModelImage) : Bool :=
  s.granFits { region := (planTouches .region 65536 [m]).length, block := (planTouches .block 16384 [m]).length } false

/-- A model image's rules against the resident images (R211, R236), then its room. `victim`: MODEL_ID that it replaces under
MODEL_SWAP, 0 for a MODEL_LOAD. -/
def State.checkModel (s : State) (m : ModelImage) (victim : Nat) : Option Status :=
  let copies := (s.img.models.filter fun x => x.img.modelId = m.modelId).length
    + (s.modelLoads.filter fun x => x.modelId = m.modelId).length
  firstOf [
    (!modelFields m, .fieldReserved),
    ((s.vocab m.vocab).isNone, .stateConflict),
    ((match s.vocab m.vocab with
      | some v => !endTokensOk m v.img.tokenCount
      | none => false), .fieldReserved),
    (m.draftId ≠ 0 && (match s.img.models.find? fun x => x.img.modelId = m.draftId && !x.old with
      | some d => d.img.kind ≠ 2 || d.img.vocab ≠ m.vocab
      | none => true), .stateConflict),
    (m.modelId ≠ victim && 2 ≤ copies, .stateConflict),
    (64 ≤ s.slotsUsed victim, .refusedCapacity),
    (m.resident && cellSpace < s.cellsUsed victim + m.cellBytes, .refusedCapacity),
    (!s.cellsHold m victim || !s.plansFit m, .refusedCapacity),
    (s.areaBytes 0 < s.imageUsed + parityBytes m.imageBytes, .refusedCapacity)]

/-! ### Checks of the other images MODEL_LOAD loads -/

/-- Copies of a kind that loads in progress will make: (identifier test, all). -/
def State.loadsOf (s : State) (p : Image → Bool) : Nat := (s.loads.filter fun l => p l.image.img).length

/-- A vocabulary (R177, R178). -/
def State.checkVocab (s : State) (v : VocabImage) : Option Status :=
  let mine (i : Image) : Bool := match i with
    | .vocab x => x.vocabId = v.vocabId
    | _ => false
  let any (i : Image) : Bool := match i with
    | .vocab _ => true
    | _ => false
  firstOf [
    (!vocabOk v, .fieldReserved),
    (2 ≤ (s.img.vocabs.filter fun x => x.img.vocabId = v.vocabId).length + s.loadsOf mine, .stateConflict),
    (4 ≤ s.img.vocabs.length + s.loadsOf any, .stateConflict),
    (s.granFree.hub < vocabGranules v, .refusedCapacity)]

/-- A template (R161, R162, R178). -/
def State.checkTemplate (s : State) (m : TemplateImage) : Option Status :=
  let mine (i : Image) : Bool := match i with
    | .template x => x.templateId = m.templateId
    | _ => false
  let any (i : Image) : Bool := match i with
    | .template _ => true
    | _ => false
  firstOf [
    ((s.vocab m.vocab).isNone, .stateConflict),
    ((match s.vocab m.vocab with
      | some v => !templateOk m v.img
      | none => false), .fieldReserved),
    (2 ≤ (s.img.templates.filter fun x => x.img.templateId = m.templateId).length + s.loadsOf mine, .stateConflict),
    (256 ≤ s.img.templates.length + s.loadsOf any, .stateConflict),
    (s.granFree.hub < templateGranules m, .refusedCapacity)]

/-- A constraint list (R194..R198). -/
def State.checkClist (s : State) (c : ConstraintImage) : Option Status :=
  let mine (i : Image) : Bool := match i with
    | .clist x => clId x.header = clId c.header
    | _ => false
  let any (i : Image) : Bool := match i with
    | .clist _ => true
    | _ => false
  orElse (clistCheck c ((s.vocab (clVocab c.header)).map (·.img))) <|
  firstOf [
    (2 ≤ (s.img.clists.filter fun x => clId x.img.header = clId c.header).length + s.loadsOf mine, .stateConflict),
    (64 ≤ s.img.clists.length + s.loadsOf any, .stateConflict),
    (s.granFree.hub < clistGranules c, .refusedCapacity)]

/-! ### Checks of an index image (R111, R114, R135, R144) -/

/-- Header fields in their ranges. -/
def indexFields (i : IndexImage) : Bool :=
  i.format ≤ 2 && i.shardId ≤ 0xFFFE && i.version < 65536
    && i.recordCount ≤ min (2 ^ 32) (2 ^ 38 / recordBytes i.format)
    && i.member < i.members && i.members ≤ 2048 && (i.groupId ≠ 0 || i.members = 1)
    && i.lcQuota.sum ≤ 256 && (i.members = 1 || (i.lcQuota.length = i.members && i.shardMap.length = i.members))
    && i.shardMap.getD i.member i.shardId = i.shardId
    && 1 ≤ i.vecDim && i.vecDim ≤ 1024 && fPos i.qscale && i.headTokens ≤ 128 && 1 ≤ i.passageMax && i.passageMax ≤ 8192

/-- Sweep period in ns that an index would run at: that of its group, else the entry's (R114, R119). -/
def State.periodFor (s : State) (i : IndexImage) : Nat :=
  if 1 < i.members then i.periodUs * 1000 else s.entry 0x300001 * 1000

/-- Sketch-store bytes of an index with parity. -/
def sketchArea (i : IndexImage) : Nat := parityBytes (storeBytes i)

/-- The checks of R135 and R144 on an index image. -/
def State.checkIndex (s : State) (i : IndexImage) : Option Status :=
  let enc := s.encoder i.rotationId
  firstOf [
    (!indexFields i, .fieldReserved),
    ((match s.index.live.head? with
      | some c => !laterVersion i.version c.img.version
      | none => false), .versionStale),
    (2 ≤ s.index.live.length || s.index.pub.isSome, .stateConflict),
    (s.areaBytes 1 < (s.index.live.map (·.bytes)).sum + sketchArea i, .refusedCapacity),
    (!s.test38 i (s.entry 0x601001) (s.periodFor i), .refusedCapacity),
    (enc.isNone, .stateConflict),
    ((match enc with
      | some e => e.img.embedDim ≠ i.vecDim
      | none => false), .stateConflict),
    ((s.vocab i.passageVocab).isNone, .stateConflict)]

/-! ### The commands -/

/-- A model is pinned: an LC stream, or another resident image or a live index that names it (R237). -/
def State.pinned (s : State) (id : Nat) : Bool :=
  let named (i : IndexImage) : Bool := i.ceImage = id
    || s.img.models.any fun m => m.img.modelId = id && m.img.kind = 3 && m.img.rotations.contains i.rotationId
  s.img.models.any (fun m => m.img.modelId ≠ id && m.img.kind = 1 && m.img.draftId = id)
    || s.index.live.any (fun v => named v.img) || s.index.pub.any fun p => named p.img

/-- A model holds a stream. -/
def State.streamsOn (s : State) (id : Nat) : Bool :=
  s.reqs.any fun r => r.gen && s.img.models.any fun m => m.slot = r.model && m.img.modelId = id

/-- A waiting swap names the model as its victim. -/
def State.swapWaits (s : State) (id : Nat) : Bool :=
  s.reqs.any fun r => r.op = 0x21 && r.load.any fun l => l.victim = id && !l.removed

/-- The rules of a loading opcode on its image (R135, R236, R237). -/
def State.checkImage (s : State) (op : Nat) (w : BitVec 256) (x : SignedImage) : Option Status :=
  let kindOk := match x.img with
    | .model _ => op ≠ 0x22
    | .vocab _ => op = 0x20
    | .template _ => op = 0x20
    | .clist _ => op = 0x20
    | .index _ => op = 0x22
    | .table _ => false
    | .rangeMap _ => false
  orElse (firstOf [(!kindOk, .fieldReserved), (!s.sigOk x, .accessDenied)]) <|
  match x.img with
  | .model m =>
    orElse (if op = 0x21 then firstOf [
      (m.kind < 1 || 4 < m.kind || !(s.img.models.any fun y => y.img.modelId = lVictim w && !y.old), .fieldReserved),
      (s.swapWaits (lVictim w) || (!lDefer w && (s.streamsOn (lVictim w) || s.pinned (lVictim w))), .stateConflict)]
      else none)
      (s.checkModel m (if op = 0x21 then lVictim w else 0))
  | .vocab v => s.checkVocab v
  | .template m => s.checkTemplate m
  | .clist c => s.checkClist c
  | .index i => s.checkIndex i
  | _ => none

/-- Check 7 of a loading opcode, in the order of log 35; the image it names. -/
def State.checkLoad (s : State) (op : Nat) (r : Request) (p : LoadPayload) : Option Status × Option SignedImage :=
  let w := p.blk
  let st := if lSource w = 1 then s.storedFor (lImageId w) r.fn else none
  let img := if lSource w = 1 then st.map (·.image) else p.image
  let keep := lSource w = 0 && lKeep w
  (orElse (firstOf [
    (dPayLen r.desc < 32, .lengthExceeds),
    (!loadBlkOk op w, .fieldReserved),
    (dPayLen r.desc < 32 + lLength w, .lengthExceeds),
    (lSource w = 1 && st.isNone, .unknownObject),
    (st.any (·.damaged), .internalFault),
    (img.isNone, .fieldReserved),
    (keep && s.sec.debug = .d3, .stateConflict)])
    (match img with
      | none => none
      | some x => orElse (s.checkImage op w x) (if keep && !s.roomFor x.bytes then some .refusedCapacity else none)), img)

/-- Hub SRAM granules that an image takes. -/
def hubOf (i : Image) : Nat :=
  match i with
  | .vocab v => vocabGranules v
  | .template m => templateGranules m
  | .clist c => clistGranules c
  | _ => 0

/-- An accepted load: room taken, ADMIT written; a victim is closed to admissions (R210, R236, R237). -/
def State.admitLoad (s : State) (op : Nat) (r : Request) (w : BitVec 256) (x : SignedImage) : State :=
  let hub := hubOf x.img
  let r1 : Request := { r with
    started := !(op = 0x21 && lDefer w)
    promise := promiseOf s r 0 1 0 0
    load := some { image := x, keep := lSource w = 0 && lKeep w, imageId := if lSource w = 1 then lImageId w else 0
                   victim := if op = 0x21 then lVictim w else 0, hub := hub } }
  let s1 : State := { s with
    pools := { s.pools with hubGranules := s.pools.hubGranules - hub }
    img := { s.img with models := s.img.models.map fun m =>
      if op = 0x21 && m.img.modelId = lVictim w then { m with victim := true } else m } }
  let s2 := match x.img with
    | .index i =>
      let p : Publication := { img := i, digest := x.digest, imageId := if lSource w = 1 then lImageId w else 0
                               bytes := sketchArea i, fn := r.fn, tag := r.tag, stored := lSource w = 1
                               vocab := (s.vocab i.passageVocab).elim 0 (·.copy_) }
      { s1 with index := { s1.index with pub := some p } }
    | _ => s1
  s2.accept r1

/-! ### Index groups (R121, R138) -/

/-- The slate owner: the lowest member in service (R121). -/
def State.owner (s : State) (i : IndexImage) : Nat := ((List.range i.members).find? (s.memberIn i)).getD i.member

/-- This module is the slate owner. -/
def State.isOwner (s : State) (i : IndexImage) : Bool := s.owner i = i.member

/-- Sends a message to every other member of a group in service. -/
def State.toMembers (s : State) (i : IndexImage) (msg : Nat) (key : List Nat) (payload : List Byte) : State :=
  (List.range i.members).foldl (fun s m =>
    if m = i.member || !s.memberIn i m then s else s.emit (.fabric (memberFab i m) msg key payload)) s

/-- A failure of a publication is reported: to the owner, or by it as an abandonment to every member (R138). -/
def State.reportFailure (s : State) (i : IndexImage) (st : Status) : State :=
  if i.members ≤ 1 then s
  else if s.isOwner i then s.toMembers i 0x08 [2, 1, i.version] (publishWire 2 i.version 0 (statusCode st))
  else s.emit (.fabric (memberFab i (s.owner i)) 0x08 [3, 1, i.version] (publishWire 3 i.version 0 (statusCode st)))

/-- An INDEX_PUBLISH that a check of R135 stops reports its failure in a group (R138). -/
def State.rejectedIndex (s : State) (img : Option SignedImage) (st : Status) : State :=
  match img with
  | some { img := .index i, .. } => s.reportFailure i st
  | _ => s

/-- A loading row. -/
def State.loadRow (s : State) (op : Nat) (r : Request) (p : LoadPayload) : State :=
  match s.checkLoad op r p with
  | (some st, x) => (s.reject r st (st ≠ .refusedCapacity)).rejectedIndex (if op = 0x22 then x else none) st
  | (none, some x) => s.admitLoad op r p.blk x
  | (none, none) => s.reject r .fieldReserved true

def execModelLoad (t : Nat) (x : Fetched) (p : LoadPayload) (s : State) : Host.Outcome State Fault Refusal :=
  .next (withFetch 0x20 x false (s.tick t) fun r s => s.loadRow 0x20 r p)

def execModelSwap (t : Nat) (x : Fetched) (p : LoadPayload) (s : State) : Host.Outcome State Fault Refusal :=
  .next (withFetch 0x21 x (lDefer p.blk) (s.tick t) fun r s => s.loadRow 0x21 r p)

def execIndexPublish (t : Nat) (x : Fetched) (p : LoadPayload) (s : State) : Host.Outcome State Fault Refusal :=
  .next (withFetch 0x22 x false (s.tick t) fun r s => s.loadRow 0x22 r p)

/-! ### Ends of loads -/

/-- Changes the load of a request. -/
def State.modLoad (s : State) (f tag : Nat) (g : LoadWork → LoadWork) : State :=
  s.modReq f tag fun r => { r with load := r.load.map g }

/-- MODEL_LOAD_DONE: the last copy of the image ended; while a deferred victim still stands, its staging (R236, R237). -/
def State.loadDone (s : State) (f tag slot : Nat) : State :=
  s.modReq f tag fun r =>
    if r.op = 0x20 || r.op = 0x21 then
      { r with load := r.load.map fun l =>
          if r.op = 0x21 && !r.started then { l with staged := true, slot := slot }
          else { l with staged := true, written := true, slot := slot } }
    else r

def execModelLoadDone (t f tag slot : Nat) (s : State) : Host.Outcome State Fault Refusal :=
  .next ((s.tick t).loadDone f tag slot)

/-- Every model copy of a MODEL_ID is removed (R237). -/
def State.removeModel (s : State) (id : Nat) : State :=
  ({ s with img := { s.img with models := s.img.models.filter fun m => m.img.modelId ≠ id } } : State).logged

/-- The slot a model takes: the one named when it is free, else the lowest free one (R211). -/
def State.slotFor (s : State) (want : Nat) : Nat :=
  let used := s.img.models.map (·.slot)
  if want < 64 && !used.contains want then want else (takeFree used 65 1 0).headD 0

/-- An image becomes resident for later admissions (R161, R178, R197, R198, R236). -/
def State.install (s : State) (f : Nat) (x : SignedImage) (imageId slot hub : Nat) : State :=
  let n := s.img.copies + 1
  let img : ImageState := { s.img with copies := n }
  match x.img with
  | .model m => ({ s with img := { img with
      models := (img.models.map fun y => if y.img.modelId = m.modelId then { y with old := true } else y)
        ++ [{ slot := s.slotFor slot, img := m, digest := x.digest, imageId := imageId, fn := f
              vocab := (s.vocab m.vocab).elim 0 (·.copy_) }] } } : State).prune
  | .vocab v => ({ s with img := { img with
      vocabs := (img.vocabs.map fun y => if y.img.vocabId = v.vocabId then { y with old := true } else y)
        ++ [{ slot := (takeFree (img.vocabs.map (·.slot)) 5 1 0).headD 0, copy_ := n, gran := hub, img := v
              digest := x.digest, imageId := imageId }] } } : State).prune
  | .template m => ({ s with img := { img with
      templates := (img.templates.map fun y => if y.img.templateId = m.templateId then { y with old := true } else y)
        ++ [{ gran := hub, copy_ := n, vocab := (s.vocab m.vocab).elim 0 (·.copy_), img := m, digest := x.digest
              imageId := imageId }] } } : State).prune
  | .clist c => ({ s with img := { img with
      clists := (img.clists.map fun y => if clId y.img.header = clId c.header then { y with old := true } else y)
        ++ [{ gran := hub, copy_ := n, digest := x.digest, img := c, fn := f, imageId := imageId }] } } : State).prune
  | _ => s

/-- Item 5 of a boundary for one load (R213, R236, R237): a free victim is removed; a load whose every copy ended before
takes effect and completes with DONE. -/
def State.settleLoad (s : State) (k : Nat × Nat) : State :=
  match s.req k.1 k.2 with
  | none => s
  | some r =>
    match r.load with
    | none => s
    | some l =>
      if r.op ≠ 0x20 && r.op ≠ 0x21 then s else
      let free := l.victim = 0 || l.removed || (!s.streamsOn l.victim && !s.pinned l.victim)
      if l.written && (!l.keep || l.stored) && free then
        let s1 := if l.victim = 0 || l.removed then s else s.removeModel l.victim
        let s2 := s1.dropReq k.1 k.2
        (s2.install r.fn l.image l.imageId l.slot l.hub).logged.finish r
          { status := .done, final := true, countA := if l.keep then l.imageId else 0 }
      else if l.victim ≠ 0 && !r.started && free then
        ((s.removeModel l.victim).modReq k.1 k.2 fun r => { r with started := true }).modLoad k.1 k.2
          fun l => { l with removed := true }
      else s

/-- Model replacements and swaps that take effect at a boundary (R213 item 5). -/
def State.settleLoads (s : State) : State :=
  (s.reqs.filterMap fun r => if r.load.isSome then some (r.fn, r.tag) else none).foldl State.settleLoad s

/-- A waiting swap is withdrawn: the staged image freed, the victim open again (R237). -/
def State.withdrawSwap (s : State) (r : Request) : State :=
  match r.load with
  | none => s
  | some l =>
    let s1 : State := { s with
      img := { s.img with models := s.img.models.map fun m =>
        if m.img.modelId = l.victim then { m with victim := false } else m }
      pools := { s.pools with hubGranules := s.pools.hubGranules + l.hub } }
    s1.finishCancelled r

/-! ### The end of an index load (R136, R138) -/

/-- Fixes SWITCH_SWEEP, from which on a group's layout has its own period and origin (R138), or makes a first publication
current, and completes INDEX_PUBLISH with DONE (R119, R136). -/
def State.fixSwitch (s : State) (p : Publication) (n : Nat) : State :=
  let s1 : State :=
    if s.index.live.isEmpty then
      let period := s.periodFor p.img
      let origin := if 1 < p.img.members then p.img.origin else (s.now / 1000 + 1) * 1000
      let first := if origin ≤ s.now + slateLead ∧ 0 < period then (s.now + slateLead - origin) / period + 1 else 0
      { s with
        flash := s.flash.mapPage
        index := { live := [⟨p.vocab, p.img, p.digest, p.imageId, p.bytes⟩], pub := none }
        sweep := { s.sweep with origin := origin, segs := [(0, origin, period)]
                                nextNo := first } }
    else
      let period := s.periodFor p.img
      { s with
        index := { s.index with pub := some { p with loaded := true, switchSweep := some n } }
        sweep := { s.sweep with segs :=
          if 1 < p.img.members then (n, p.img.origin + n * period, period) :: s.sweep.segs else s.sweep.segs } }
  match s1.req p.fn p.tag with
  | none => s1
  | some r => s1.finish r { status := .done, final := true, countA := match r.load with
      | some l => if l.keep then l.imageId else 0
      | none => 0 }

/-- A publication ends with a failing status: what it loaded is freed (R138). -/
def State.abandon (s : State) (p : Publication) (st : Status) : State :=
  let s1 : State := { s with index := { s.index with pub := none } }
  match s1.req p.fn p.tag with
  | none => s1
  | some r => s1.finish r { status := st, final := true, countA := match r.load with
      | some l => if l.keep then l.imageId else 0
      | none => 0 }

/-- The owner fixes one SWITCH_SWEEP once every member has reported, the first without booking at every member by their reports, and
sends it (R138). -/
def State.groupSwitch (s : State) (p : Publication) : State :=
  if (List.range p.img.members).all fun m => p.reported.contains m then
    let n := max s.unbooked p.free
    (s.fixSwitch p n).toMembers p.img 0x08 [1, 1, p.img.version] (publishWire 1 p.img.version n 0)
  else { s with index := { s.index with pub := some p } }

/-- INDEX_LOAD_DONE: alone, SWITCH_SWEEP is fixed; in a group, the load's end is reported to the owner (R136, R138). The flash
copy of a host image must be programmed first. -/
def State.indexLoaded (s : State) (ok : Bool) : State :=
  match s.index.pub with
  | none => s
  | some p =>
    if p.loaded || !p.stored then s
    else if !ok then
      (s.reportFailure p.img .internalFault).abandon p .internalFault
    else if p.img.members ≤ 1 then s.fixSwitch p s.unbooked
    else if s.isOwner p.img then s.groupSwitch { p with loaded := true, reported := p.img.member :: p.reported }
    else ({ s with index := { s.index with pub := some { p with loaded := true } } } : State).emit
      (.fabric (memberFab p.img (s.owner p.img)) 0x08 [0, 1, p.img.version] (publishWire 0 p.img.version s.unbooked 0))

def execIndexLoadDone (t : Nat) (ok : Bool) (s : State) : Host.Outcome State Fault Refusal :=
  .next ((s.tick t).indexLoaded ok)

end Sys2Proof.Machine
end

