-- ==== Sys2Proof/Machine/HostRegs.lean ====
section
/-!
DEFINITION. Host registers and doorbells: rings, windows, events, MSI-X, function resets, the dictionary window's doorbell
(R310..R317, R328..R330, R350, R398, R439).
-/
namespace Sys2Proof.Machine

/-! ### Doorbells -/

/-- A submission doorbell: equal values are ignored, a value at or above the entry count sets ERROR (R316). -/
def State.subTail (s : State) (f r v : Nat) : State :=
  let q := (s.fn f).subs.getD r {}
  if !s.fnExists f || 4 ≤ r || !q.enable || v = q.tail then s
  else if 2 ^ q.size ≤ v then
    ((s.modFn f fun fn => { fn with subs := modAt fn.subs r fun q =>
        { q with error := true, errStatus := statusCode .fieldReserved } }).funcEvent f 0).count 0x110004 1
  else s.modFn f fun fn => { fn with subs := modAt fn.subs r fun q => { q with tail := v } }

def execSubTailDoorbell (t f r v : Nat) (s : State) : Host.Outcome State Fault Refusal :=
  .next ((s.tick t).subTail f r v)

/-- The completion doorbell frees the entries up to the one the host reads next (R317, log 14). -/
def State.cplHead (s : State) (f v : Nat) : State :=
  let c := (s.fn f).cpl
  if s.fnExists f && c.enable && v < 2 ^ c.size then
    s.modFn f fun fn => { fn with cpl := { fn.cpl with
      head := v, used := (fn.cpl.tail + 2 ^ fn.cpl.size - v) % 2 ^ fn.cpl.size } }
  else s

def execCplHeadDoorbell (t f v : Nat) (s : State) : Host.Outcome State Fault Refusal :=
  .next ((s.tick t).cplHead f v)

/-- The step batch doorbell frees ring space; records held in overflow move to the ring (R328, log 14). -/
def State.sbrHead (s : State) (f v : Nat) : State :=
  let b := (s.fn f).sbr
  if s.fnExists f && b.enable && v < 2 ^ b.size && v % 64 = 0 then
    (s.modFn f fun fn => { fn with sbr := { fn.sbr with head := v } }) |> State.drainOvf f (b.ovf.length + 1)
  else s

def execSbrHeadDoorbell (t f v : Nat) (s : State) : Host.Outcome State Fault Refusal :=
  .next ((s.tick t).sbrHead f v)

/-! ### Ring enables -/

/-- A ring's configuration (R313): base, size, enabled, bytes per unit of SIZE, range of SIZE. -/
def ringCfg (fn : Fn) (ring : RingSel) : Nat × Nat × Bool × Nat × Nat × Nat :=
  match ring with
  | .sub r => let q := fn.subs.getD r {}; (q.base, q.size, q.enable, 64, 6, 16)
  | .cpl => (fn.cpl.base, fn.cpl.size, fn.cpl.enable, 64, 6, 16)
  | .sbr => (fn.sbr.base, fn.sbr.size, fn.sbr.enable, 1, 16, 26)

/-- The checks of an enable, in the order of R315. -/
def State.enableCheck (s : State) (f : Nat) (ring : RingSel) : Option Status :=
  match ringCfg (s.fn f) ring with
  | (base, size, _, unit, lo, hi) =>
    if size < lo || hi < size || base % 4096 ≠ 0 then some .fieldReserved
    else if !inWindows (s.fn f).wins base (2 ^ size * unit) then some .accessDenied
    else if ring = .sbr && s.granFree.hub < 16 then some .refusedCapacity
    else none

/-- A refused enable: ENABLE stays 0, ERROR with the status (R315). -/
def ringError (fn : Fn) (ring : RingSel) (st : Status) : Fn :=
  match ring with
  | .sub r => { fn with subs := modAt fn.subs r fun q => { q with error := true, errStatus := statusCode st } }
  | .cpl => { fn with cpl := { fn.cpl with error := true, errStatus := statusCode st } }
  | .sbr => { fn with sbr := { fn.sbr with error := true, errStatus := statusCode st } }

/-- An accepted enable: HEAD, TAIL and doorbell 0, ERROR cleared (R315). -/
def ringOn (fn : Fn) (ring : RingSel) : Fn :=
  match ring with
  | .sub r => { fn with subs := modAt fn.subs r fun q => { base := q.base, size := q.size, enable := true } }
  | .cpl => { fn with cpl := { base := fn.cpl.base, size := fn.cpl.size, enable := true } }
  | .sbr => { fn with sbr := { base := fn.sbr.base, size := fn.sbr.size, enable := true }, overrun := false }

/-- Hub SRAM granules held by overflow areas (R105, R315). -/
def State.holdOvf (s : State) (n : Nat) : State := { s with pools := { s.pools with ovfHeld := s.pools.ovfHeld + n } }

/-- Gives those granules back. -/
def State.freeOvf (s : State) (n : Nat) : State := { s with pools := { s.pools with ovfHeld := s.pools.ovfHeld - n } }

/-- Writing 1 to ENABLE (R315). -/
def State.ringEnable (s : State) (f : Nat) (ring : RingSel) : State :=
  if !s.fnExists f || (ringCfg (s.fn f) ring).2.2.1 then s else
  match s.enableCheck f ring with
  | some st => (s.modFn f fun fn => ringError fn ring st).funcEvent f 0
  | none => (if ring = .sbr then s.holdOvf 16 else s).modFn f fun fn => ringOn fn ring

def execRingEnable (t f : Nat) (ring : RingSel) (s : State) : Host.Outcome State Fault Refusal :=
  .next ((s.tick t).ringEnable f ring)

/-- A request of the function is outstanding. -/
def State.busyFn (s : State) (f : Nat) : Bool := s.reqs.any fun r => r.fn = f

/-- Writing 0 to ENABLE (R315); a disabled step batch ring gives its overflow area back (log 15). -/
def State.ringDisable (s : State) (f : Nat) (ring : RingSel) : State :=
  if !s.fnExists f then s else
  match ring with
  | .sub r => s.modFn f fun fn => { fn with subs := modAt fn.subs r fun q => { q with enable := false } }
  | .cpl =>
    if s.busyFn f then s.funcEvent f 1
    else s.modFn f fun fn => { fn with cpl := { fn.cpl with enable := false } }
  | .sbr =>
    if s.busyFn f then s.funcEvent f 1
    else (if (s.fn f).sbr.enable then s.freeOvf 16 else s).modFn f fun fn =>
      { fn with sbr := { fn.sbr with enable := false, ovf := [] }, overrun := false }

def execRingDisable (t f : Nat) (ring : RingSel) (s : State) : Host.Outcome State Fault Refusal :=
  .next ((s.tick t).ringDisable f ring)

/-! ### FUNC_EVENT and register writes -/

/-- W1C of FUNC_EVENT (R313). -/
def State.clearEvent (s : State) (f : Nat) (mask : BitVec 32) : State :=
  if s.fnExists f then s.modFn f fun fn => { fn with event := fn.event &&& ~~~mask } else s

def execFuncEventClear (t f : Nat) (mask : BitVec 32) (s : State) : Host.Outcome State Fault Refusal :=
  .next ((s.tick t).clearEvent f mask)

/-- The low or high word of a 64-bit register replaced. -/
def putHalf (old : Nat) (hi : Bool) (w : Nat) : Nat :=
  if hi then old % 2 ^ 32 + w % 2 ^ 32 * 2 ^ 32 else old / 2 ^ 32 * 2 ^ 32 + w % 2 ^ 32

/-- A BASE or SIZE write: ignored with FUNC_EVENT bit 1 while the ring is enabled (R315). -/
def State.ringCfgWrite (s : State) (f : Nat) (on : Bool) (g : Fn → Fn) : State :=
  if on then s.funcEvent f 1 else s.modFn f g

/-- A 32-bit write of a ring's register at `o` of its block: BASE, SIZE, CTRL (R313). -/
def State.ringWrite (s : State) (f : Nat) (ring : RingSel) (o w : Nat) : State :=
  let on := (ringCfg (s.fn f) ring).2.2.1
  let setB (hi : Bool) : State := s.ringCfgWrite f on fun fn => match ring with
    | .sub r => { fn with subs := modAt fn.subs r fun q => { q with base := putHalf q.base hi w } }
    | .cpl => { fn with cpl := { fn.cpl with base := putHalf fn.cpl.base hi w } }
    | .sbr => { fn with sbr := { fn.sbr with base := putHalf fn.sbr.base hi w } }
  if o = 0 then setB false
  else if o = 4 then setB true
  else if o = 8 then s.ringCfgWrite f on fun fn => match ring with
    | .sub r => { fn with subs := modAt fn.subs r fun q => { q with size := w } }
    | .cpl => { fn with cpl := { fn.cpl with size := w } }
    | .sbr => { fn with sbr := { fn.sbr with size := w } }
  else if o = 12 then (if w % 2 = 1 then s.ringEnable f ring else s.ringDisable f ring)
  else s

/-- The mask is cleared: a pending message is sent and its pending bit cleared (R329). -/
def State.unmask (s : State) (f v : Nat) : State :=
  let m := (s.fn f).msix.getD v {}
  let s1 := s.modFn f fun fn => { fn with msix := modAt fn.msix v fun m => { m with masked := false, pend := false } }
  if m.pend && s.fnExists f && v < 4 then s1.fire f v else s1

/-- DICT_DOORBELL: 1 takes DICT_REQ; while BUSY it is ignored and FUNC_EVENT bit 1 is set (R350). -/
def State.dictBell (s : State) (f v : Nat) : State :=
  if !s.fnExists f || v ≠ 1 then s
  else if (s.fn f).dictBusy then s.funcEvent f 1
  else s.modFn f fun fn => { fn with
    dictTaken := some (BitVec.ofNat 128 (ofLe (fn.dictReq.readAll 0 16)), fn.dictReq.readAll 16 4080)
    dictBusy := true, dictValid := false }

/-- An aligned 32-bit write to BAR0 (R312, R313); reserved offsets ignore it. -/
def State.write32 (s : State) (f off w : Nat) : State :=
  if off = 0x4 then s.clearEvent f (BitVec.ofNat 32 w)
  else if off = 0x8 then s.modFn f fun fn => { fn with holdoff := min 1000 w }
  else if 0x100 ≤ off && off < 0x180 then s.ringWrite f (.sub ((off - 0x100) / 0x20)) ((off - 0x100) % 0x20) w
  else if 0x200 ≤ off && off < 0x210 then s.ringWrite f .cpl (off - 0x200) w
  else if 0x240 ≤ off && off < 0x250 then s.ringWrite f .sbr (off - 0x240) w
  else if 0x800 ≤ off && off < 0x900 then
    let i := (off - 0x800) / 0x10
    let o := (off - 0x800) % 0x10
    s.modFn f fun fn => { fn with wins := modAt fn.wins i fun x =>
      if o < 8 then { x with base := putHalf x.base (o = 4) w } else { x with len := putHalf x.len (o = 12) w } }
  else if 0x1000 ≤ off && off < 0x1020 && off % 8 = 0 then s.subTail f ((off - 0x1000) / 8) w
  else if off = 0x1040 then s.cplHead f w
  else if off = 0x1048 then s.sbrHead f w
  else if 0x2000 ≤ off && off < 0x2040 then
    let i := (off - 0x2000) / 0x10
    let o := (off - 0x2000) % 0x10
    if o = 12 && w % 2 = 0 then s.unmask f i
    else s.modFn f fun fn => { fn with msix := modAt fn.msix i fun x =>
      if o < 8 then { x with addr := putHalf x.addr (o = 4) w }
      else if o = 8 then { x with data := w } else { x with masked := true } }
  else if 0x10000 ≤ off && off < 0x11000 then
    s.modFn f fun fn => { fn with dictReq := fn.dictReq.writeAll (off - 0x10000) (leBytes 4 w) }
  else if off = 0x12000 then s.dictBell f w
  else s

/-- A register write of a function: an aligned 32-bit or 64-bit access, the latter as its two words in rising order; any
other access is ignored (R313, log 16). -/
def State.funcWrite (s : State) (f off width v : Nat) : State :=
  if !s.fnExists f then s
  else if width = 4 && off % 4 = 0 then s.write32 f off (v % 2 ^ 32)
  else if width = 8 && off % 8 = 0 then (s.write32 f off (v % 2 ^ 32)).write32 f (off + 4) (v / 2 ^ 32 % 2 ^ 32)
  else s

def execFuncRegisterWrite (t f offset width value : Nat) (s : State) : Host.Outcome State Fault Refusal :=
  .next ((s.tick t).funcWrite f offset width value)

/-! ### Register reads (R6, R7, R313, R350) -/

/-- A 32-bit half of a 64-bit register. -/
def half (x : Nat) (hi : Bool) : Nat := if hi then x / 2 ^ 32 % 2 ^ 32 else x % 2 ^ 32

/-- A CTRL register: ENABLE, ERROR, status (R313). -/
def ctrlWord (enable error : Bool) (status : Nat) : Nat := enable.toNat + 2 * error.toNat + 256 * status

/-- FUNC_INFO: function number, operating state, FETCHING (R313). -/
def State.funcInfo (s : State) (f : Nat) : Nat := f + 256 * s.mod.op.code + 65536 * (fetching s.mod.op).toNat

/-- A register of a submission ring at `o` of its block (R313). -/
def subRead (q : SubRing) (o : Nat) : Nat :=
  if o = 0 then half q.base false
  else if o = 4 then half q.base true
  else if o = 8 then q.size
  else if o = 12 then ctrlWord q.enable q.error q.errStatus
  else if o = 16 then q.head
  else 0

/-- A completion ring register. -/
def cplRead (c : CplRing) (o : Nat) : Nat :=
  if o = 0 then half c.base false
  else if o = 4 then half c.base true
  else if o = 8 then c.size
  else if o = 12 then ctrlWord c.enable c.error c.errStatus
  else if o = 16 then c.tail
  else 0

/-- A step batch ring register; the last is OVF_BYTES. -/
def sbrRead (b : SbrRing) (o : Nat) : Nat :=
  if o = 0 then half b.base false
  else if o = 4 then half b.base true
  else if o = 8 then b.size
  else if o = 12 then ctrlWord b.enable b.error b.errStatus
  else if o = 16 then b.tail
  else if o = 20 then (b.ovf.map (·.len)).sum
  else 0

/-- What an aligned 32-bit read of BAR0 returns: registers as they were written, 0 for a WO register and for every offset or bit
that is reserved or not listed (R6, R7, R312, R313, R329, R350). -/
def State.read32 (s : State) (f off : Nat) : Nat :=
  let fn := s.fn f
  if off = 0 then s.funcInfo f
  else if off = 0x4 then fn.event.toNat
  else if off = 0x8 then fn.holdoff
  else if 0x100 ≤ off && off < 0x180 then subRead (fn.subs.getD ((off - 0x100) / 0x20) {}) ((off - 0x100) % 0x20)
  else if 0x200 ≤ off && off < 0x218 then cplRead fn.cpl (off - 0x200)
  else if 0x240 ≤ off && off < 0x258 then sbrRead fn.sbr (off - 0x240)
  else if 0x800 ≤ off && off < 0x900 then
    let w := fn.wins.getD ((off - 0x800) / 0x10) {}
    let o := (off - 0x800) % 0x10
    if o < 8 then half w.base (o = 4) else half w.len (o = 12)
  else if 0x2000 ≤ off && off < 0x2040 then
    let m := fn.msix.getD ((off - 0x2000) / 0x10) {}
    let o := (off - 0x2000) % 0x10
    if o < 8 then half m.addr (o = 4) else if o = 8 then m.data else m.masked.toNat
  else if off = 0x3000 then ((fn.msix.zipIdx.filter fun m => m.1.pend).map fun m => 2 ^ m.2).sum
  else if 0x10000 ≤ off && off < 0x11000 then ofLe (fn.dictReq.readAll (off - 0x10000) 4)
  else if 0x11000 ≤ off && off < 0x12000 then ofLe ((fn.dictRsp.drop (off - 0x11000)).take 4)
  else if off = 0x12004 then fn.dictBusy.toNat + 2 * fn.dictValid.toNat
  else 0

/-- A register read of a function that exists: an aligned 32-bit or 64-bit access, the latter as its two words (R313); what any
other access returns is not stated, and the model answers none (log 16). -/
def State.funcRead (s : State) (f off width : Nat) : Option Nat :=
  if !s.fnExists f then none
  else if width = 4 && off % 4 = 0 then some (s.read32 f off)
  else if width = 8 && off % 8 = 0 then some (s.read32 f off + 2 ^ 32 * s.read32 f (off + 4))
  else none

/-! ### Function resets -/

/-- A request that CANCEL can end (R327). -/
def cancellable (r : Request) : Bool :=
  r.op ∈ [0x01, 0x02, 0x03, 0x04, 0x05, 0x06, 0x10, 0x30] || (r.op = 0x21 && !r.started)

/-- A request of a reset function: nothing more is written for it, and it ends at its cancellation boundary (R330). -/
def flrRequest (f : Nat) (r : Request) : Request :=
  if r.fn = f then { r with silent := true, cancelling := r.cancelling || cancellable r, cancels := [] } else r

/-- Function Level Reset of one function (R330): requests, registers, the window session (R338). -/
def State.flrOne (s : State) (f : Nat) : State :=
  let s1 := if (s.fn f).sbr.enable then s.freeOvf 16 else s
  let s2 : State := { s1 with
    reqs := s1.reqs.map (flrRequest f)
    dict := { s1.dict with sessions := s1.dict.sessions.filter fun d => !(d.transport = .pcie && d.channel = f) } }
  (s2.modFn f fun _ => {}).count 0x110007 1

/-- A reset of the physical function also clears VF Enable and resets every enabled virtual function (R330). -/
def State.flr (s : State) (f : Nat) : State :=
  if !s.fnExists f then s
  else if f = 0 then
    let fs := (List.range 64).filter fun g => s.fnExists g
    let s1 := fs.foldl State.flrOne s
    { s1 with host := { s1.host with vfEnable := false } }
  else s.flrOne f

def execFunctionLevelReset (t f : Nat) (s : State) : Host.Outcome State Fault Refusal :=
  .next ((s.tick t).flr f)

/-- PERST_N, Hot Reset or link down: a Function Level Reset of every function (R398); PERST_N is then asserted (R439). -/
def execPcieLinkReset (t : Nat) (perst : Bool) (s : State) : Host.Outcome State Fault Refusal :=
  let s1 := (s.tick t).flr 0
  .next { s1 with host := { s1.host with perstHigh := s1.host.perstHigh && !perst } }

/-- A change of VF Enable and NumVFs: a function that ceases to exist is reset first (R311). -/
def execVfEnableChange (t : Nat) (enable : Bool) (num : Nat) (s : State) : Host.Outcome State Fault Refusal :=
  let s1 := s.tick t
  let gone := (List.range 64).filter fun f => f ≠ 0 && s1.fnExists f && !(enable && f ≤ num)
  let s2 := gone.foldl State.flrOne s1
  .next { s2 with host := { s2.host with vfEnable := enable, numVfs := min 63 num } }

/-- PERST_N is released: the endpoint trains (R439). -/
def execPerstNRelease (t : Nat) (s : State) : Host.Outcome State Fault Refusal :=
  let s1 := s.tick t
  .next { s1 with host := { s1.host with perstHigh := true } }

/-! ### MSI-X -/

/-- The hold-off expires: the interrupt that waited fires, or pends when it is masked meanwhile (R329). -/
def State.holdoffEnd (s : State) (f v : Nat) : State :=
  let m := (s.fn f).msix.getD v {}
  if m.armed && (m.lastFired.getD 0) + (s.fn f).holdoff * 1000 ≤ s.now then
    (s.modFn f fun fn => { fn with msix := modAt fn.msix v fun m => { m with armed := false } }).fire f v
  else s

def execMsixHoldoffExpiry (t f v : Nat) (s : State) : Host.Outcome State Fault Refusal :=
  .next ((s.tick t).holdoffEnd f v)

def execMsixUnmask (t f v : Nat) (s : State) : Host.Outcome State Fault Refusal :=
  .next ((s.tick t).unmask f v)

/-! ### Dictionary window -/

def execDictDoorbell (t f v : Nat) (s : State) : Host.Outcome State Fault Refusal :=
  .next ((s.tick t).dictBell f v)

end Sys2Proof.Machine
end

