-- ==== Sys2Proof/Machine/HostOps.lean ====
section
/-!
DEFINITION. CANCEL, COPY and NOP (R28, R97, R237, R292, R322, R324, R327).
-/
namespace Sys2Proof.Machine

/-! ### CANCEL -/

/-- The FINAL entry of a request that is answered at once and never accepted: CANCEL, NOP (R326). -/
def State.answer (s : State) (r : Request) (st : Status) (applied : Bool) : State :=
  s.complete r { status := st, final := true, applied := applied } false

/-- Adds a waiting CANCEL to its target. -/
def addCancel (r : Request) (q : Request) : Request :=
  { q with cancels := q.cancels ++ [⟨r.tag, r.ring, r.index⟩] }

/-- A CANCEL on its target (R327): pending rounds, waiting swaps and sent hand-offs end at once, every other target at its
cancellation boundary (R28, R108, R237, R292). -/
def State.cancelTarget (s : State) (r q : Request) : State :=
  let q1 := addCancel r q
  if !cancellable q then s.answer r .stateConflict false
  else if q.round.isSome then s.refuseRound q1
  else if q.op = 0x21 then s.withdrawSwap q1
  else if q.work.stage = 14 then
    (match q.work.awaiting with
      | some id => s.emit (.fabric id 0x22 [q.tag] (cancelWire q.tag))
      | none => s).finishCancelled q1
  else s.modReq q.fn q.tag fun x => { addCancel r x with cancelling := true }

/-- A fetched CANCEL (R327). -/
def State.cancelRow (s : State) (r : Request) : State :=
  if s.reqs.any (fun q => q.fn = r.fn && q.cancels.any fun c => c.tag = dTarget r.desc) then s.answer r .stateConflict false
  else match s.req r.fn (dTarget r.desc) with
    | none => s.answer r .unknownObject false
    | some q => s.cancelTarget r q

def execCancel (t : Nat) (x : Fetched) (s : State) : Host.Outcome State Fault Refusal :=
  .next (withFetch 0x07 x false (s.tick t) fun r s => s.cancelRow r)

/-! ### NOP -/

def execNop (t : Nat) (x : Fetched) (s : State) : Host.Outcome State Fault Refusal :=
  .next (withFetch 0x3F x false (s.tick t) fun r s => s.answer r .done false)

/-! ### COPY -/

def cSrcSpace (w : BitVec 256) : Nat := bits w.toNat 255 248
def cDstSpace (w : BitVec 256) : Nat := bits w.toNat 247 240
def cLength (w : BitVec 256) : Nat := bits w.toNat 223 192
def cSrc (w : BitVec 256) : Nat := bits w.toNat 191 128
def cDst (w : BitVec 256) : Nat := bits w.toNat 127 64

/-- Bytes of a function's scratch (R322). -/
def State.scratchBytes (s : State) (f : Nat) : Nat := s.inForce (perFn 0x6012 f) * 2 ^ 20

/-- One side of a COPY reaches beyond its space (R322). -/
def State.copySide (s : State) (r : Request) (space at_ len : Nat) : Option Status :=
  if space = 1 then (if s.scratchBytes r.fn < at_ + len then some .lengthExceeds else none)
  else if inWindows r.wins at_ len then none else some .accessDenied

/-- Check 7 of a COPY (R322). -/
def State.checkCopy (s : State) (r : Request) (w : BitVec 256) : Option Status :=
  orElse (firstOf [
    (dPayLen r.desc < 32, .lengthExceeds),
    (1 < cSrcSpace w || 1 < cDstSpace w || (cSrcSpace w = 0 && cDstSpace w = 0) || bits w.toNat 239 224 ≠ 0
      || bits w.toNat 63 0 ≠ 0 || cLength w = 0 || cLength w = 0xFFFFFFFF, .fieldReserved)]) <|
  orElse (s.copySide r (cSrcSpace w) (cSrc w) (cLength w)) (s.copySide r (cDstSpace w) (cDst w) (cLength w))

/-- A COPY enters the tile mover's queue; as LC its bytes are charged to the table-bytes ledger (R97, log 34). -/
def State.copyAdm (s : State) (r : Request) (w : BitVec 256) (data : List Byte) : Adm :=
  let a : Adm := { s := s, r := { r with copy := some (w, data.take (cLength w)) }, t := s.now }
  let x := a.spread .tblBytes (cLength w)
  (if r.lc then x.1.wait ((x.2 + 1) * 50000) else x.1).asPlain s

/-- The admission of a COPY ends. -/
def State.admitCopy (s : State) (r : Request) (w : BitVec 256) (data : List Byte) : State := (s.copyAdm r w data).close s 1

def execCopy (t : Nat) (x : Fetched) (blk : BitVec 256) (data : List Byte) (s : State) : Host.Outcome State Fault Refusal :=
  .next (withFetch 0x30 x false (s.tick t) fun r s =>
    match s.checkCopy r blk with
    | some st => s.reject r st true
    | none =>
      if r.lc && s.entry (perFn 0x2100 r.fn) = 0 then s.reject r .accessDenied false
      else s.admitCopy r blk data)

/-- Scratch of a function. -/
def State.scratch (s : State) (f : Nat) : Memory := (getKey s.img.scratch f).getD []

/-- The bytes of a COPY move (R322); a partner's copy of a COPY moves none (R301). -/
def State.moveCopy (s : State) (r : Request) (w : BitVec 256) (data : List Byte) : State :=
  let f := s.outFn r.fn
  let bytes := if cSrcSpace w = 1 then (s.scratch f).readAll (cSrc w) (cLength w) else data
  if r.mirror then s
  else if cDstSpace w = 1 then
    { s with img := { s.img with scratch := setKey s.img.scratch f ((s.scratch f).writeAll (cDst w) bytes) } }
  else if r.silent then s
  else s.emit (.hostWrite f (cDst w) bytes.length (ofLe bytes))

/-- The last write of a COPY is sent (R97). One that was cancelled in flight has run to its end, and nothing more is written for it
(R95). -/
def State.copyDone (s : State) (f tag : Nat) : State :=
  match s.req f tag with
  | some r =>
    match r.copy with
    | none => s
    | some (w, data) => (s.moveCopy r w data).finishResult r .done 0
  | none =>
    match s.tiers.inFlight.find? fun r => r.fn = f && r.tag = tag with
    | none => s
    | some r =>
      let s1 := match r.copy with
        | some (w, data) => s.moveCopy r w data
        | none => s
      { s1 with tiers := { s1.tiers with inFlight := s1.tiers.inFlight.filter fun q => !(q.fn = f && q.tag = tag) } }

def execCopyDone (t f tag : Nat) (s : State) : Host.Outcome State Fault Refusal :=
  .next ((s.tick t).copyDone f tag)

end Sys2Proof.Machine
end

