-- ==== Sys2Proof/Machine/Cells.lean ====
section
/-!
DEFINITION. Places in the memory tiers (R86), a cell's arrays, row ring and accumulator file (R62..R64, R69..R77), its activity
ramp (R81), its vector lane (R76, R79), reductions (R73, R77): what one operation of a slice does.
-/
namespace Sys2Proof.Machine

/-! ### Places (R86) -/

/-- Units of a tier. -/
def tierUnits : Tier → Nat
  | .cell => 12288 | .block => 768 | .region => 32 | .pool | .image => 4 | .hub => 1

/-- Bytes of a unit of a tier; an HBM area's count is its die's share of R101, in its largest size. -/
def tierBytes : Tier → Nat
  | .cell => 131072 | .block => 2097152 | .region => 16777216 | .pool | .image => 384000000000 | .hub => 67108864

/-- `n` bytes from a place on lie in its unit. -/
def placeHolds (p : Place) (n : Nat) : Bool := p.unit < tierUnits p.tier && p.off + n ≤ tierBytes p.tier

/-- Number of a tier among the keys of the tiers' contents; the image area is kept by stack (`stackKey`). -/
def tierNo : Tier → Nat
  | .cell => 1 | .block => 2 | .region => 3 | .pool => 4 | .image => 5 | .hub => 6

/-- The key of a place in the tiers' contents (log 165). -/
def placeKey (p : Place) : Nat := (tierNo p.tier * 2 ^ 16 + p.unit) * 2 ^ 40 + p.off

/-- The key of a byte of a stack's protected part. -/
def stackKey (stack off : Nat) : Nat := stack * 2 ^ 40 + off

/-- A place some bytes further on. -/
def placeStep (p : Place) (n : Nat) : Place := { p with off := p.off + n }

/-! ### The activity ramp (R81) -/

/-- One handshake: a real row waits or not; true when a row enters the array, real when one waits and else ballast. -/
def rampStep (p f : Nat) (waits : Bool) : Nat × Nat × Bool :=
  let p1 := if waits then min 32 (p + 1) else p - 1
  if 32 ≤ f + p1 then (p1, f + p1 - 32, true) else (p1, f + p1, false)

/-- Handshakes without a real row: levels, and ballast rows that enter; the array is idle at level 0. -/
def rampIdle : Nat → Nat → Nat → Nat → Nat × Nat × Nat
  | 0, p, f, b => (p, f, b)
  | n + 1, p, f, b =>
    if p = 0 then (p, f, b) else
    let r := rampStep p f false
    rampIdle n r.1 r.2.1 (b + r.2.2.toNat)

/-- Handshakes until `rows` real rows have entered. -/
def rampRows : Nat → Nat → Nat → Nat → Nat × Nat
  | 0, p, f, _ => (p, f)
  | fuel + 1, p, f, rows =>
    if rows = 0 then (p, f) else
    let r := rampStep p f true
    rampRows fuel r.1 r.2.1 (rows - r.2.2.toNat)

/-- `rows` real rows enter after `gap` handshakes without one; from the level that the run-down has reached. -/
def Core.ramp (c : Core) (gap rows : Nat) (now : Time) : Core :=
  if rows = 0 then c else
  let i := rampIdle (min gap 64) c.level c.duty 0
  let r := rampRows (rows + 64) i.1 i.2.1 rows
  { c with level := r.1, duty := r.2, ballast := c.ballast + i.2.2, rampAt := now }

/-! ### Rows through an array (R60..R71, R77) -/

/-- Accumulator rows of an array (R64). -/
def accRows (split : Bool) : Nat := if split then 32 else 64

/-- Columns of an array. -/
def arrayCols (split : Bool) : Nat := if split then 16 else 32

/-- What one row meets in one column: scale pairs with their elements, for every block of 32 in order. In a quarter at K = 16 a
block spans two handshakes, and so two tiles (R60); their scale planes, 8 bytes each, hold the 16 columns' scales in order
(DESIGN CHOICE, log 166). -/
def columnTerms (r : RingRow) (a : TileReg) (b : Option TileReg) (c : Nat) : List (Nat × Nat × List Nat × List Nat) :=
  let h := a.header.toNat
  let xs := (List.range r.k).map (stripElem r.fmt r.bytes)
  let col (t : TileReg) : List Nat := (List.range (tlK t.header.toNat)).map fun k => tileCode t.header.toNat t.body k c
  match b with
  | some b => [(stripScale r.fmt r.k r.bytes 0,
      if c < 8 then tileScale h a.body c else tileScale b.header.toNat b.body (c - 8), xs, col a ++ col b)]
  | none =>
    let ys := col a
    (List.range (max 1 (r.k / 32))).map fun i =>
      (stripScale r.fmt r.k r.bytes i, tileScale h a.body (c * (tlK h / 32) + i), (xs.drop (32 * i)).take 32, (ys.drop (32 * i)).take 32)

/-- The tiles that a row enters against: the pair is in R60's table and the tile has the K and N of the array; in a quarter at
K = 16 the shadow tile holds the second half of each block. -/
def rowTiles (split : Bool) (u : ArrayUnit) (r : RingRow) : Option (ElemFmt × TileReg × Option TileReg) :=
  match u.active with
  | none => none
  | some a =>
    match tileElem a.header.toNat with
    | none => none
    | some ft =>
      match pairK r.fmt ft with
      | none => none
      | some k =>
        let k := if split then k / 2 else k
        let fits (t : TileReg) : Bool := tlK t.header.toNat = k && tlN t.header.toNat = arrayCols split
        if !fits a then none
        else if elemScaled ft && k = 16 then
          match u.shadow with
          | some b => if fits b && tileElem b.header.toNat = some ft && r.k = 32 then some (ft, a, some b) else none
          | none => none
        else if r.k = k then some (ft, a, none) else none

/-- The path of an operand pair. -/
def pathOf : ElemFmt → AccKind
  | .bf16 => .bf16 | .int8 => .int8 | _ => .mx

/-- The accumulator row of an output row: that already held, or one that starts now with its anchor fixed (R69); none while
another output occupies it (R64). -/
def accFor (u : ArrayUnit) (slot i : Nat) (kind : AccKind) (cols : Nat) (q : Int) : Option AccRow :=
  match getKey u.acc slot with
  | none => some (match kind with
      | .bf16 => { out := i, kind := kind, fps := List.replicate cols 0 }
      | _ => { out := i, kind := kind, q := q, sums := List.replicate cols {} })
  | some a => if a.out = i && a.kind = kind then some a else none

/-- The row's results added to an accumulator row. -/
def addRow (r : RingRow) (ft : ElemFmt) (a : TileReg) (b : Option TileReg) (acc : AccRow) : AccRow × Counts :=
  match acc.kind with
  | .bf16 => ({ acc with fps := acc.fps.zipIdx.map fun p =>
      (columnTerms r a b p.2).foldl (fun w x => bf16Add w x.2.2.1 x.2.2.2) p.1 }, {})
  | .int8 => ({ acc with sums := acc.sums.zipIdx.map fun p =>
      (columnTerms r a b p.2).foldl (fun w x => addInt8 w x.2.2.1 x.2.2.2) p.1 }, {})
  | .mx =>
    let rs := acc.sums.zipIdx.map fun p => (columnTerms r a b p.2).foldl (fun w x =>
      let y := addTerm r.fmt ft acc.q w.1 x
      (y.1, w.2.add y.2)) (p.1, ({} : Counts))
    ({ acc with sums := rs.map (·.1) }, rs.foldl (fun c x => c.add x.2) {})

/-- One row of the ring enters the array for output row `i`: none when the streamer waits, or the operation does not run. -/
def meetRow (split : Bool) (anchor : BitVec 16) (i : Nat) (u : ArrayUnit) : Option (ArrayUnit × Counts) :=
  match u.ring with
  | [] => none
  | r :: rest =>
    match rowTiles split u r with
    | none => none
    | some (ft, a, b) =>
      let slot := i % accRows split
      match accFor u slot i (pathOf ft) (arrayCols split) (anchor.toInt + r.maxExp) with
      | none => none
      | some acc =>
        let x := addRow r ft a b (if pathOf ft = .int8 then { acc with q := 0 } else acc)
        some ({ u with ring := rest, acc := setKey u.acc slot x.1 }, x.2)

/-- Up to `n` rows of the ring, output rows `i` on: the array, the counts, the rows that entered. -/
def meetRows (split : Bool) (anchor : BitVec 16) : Nat → Nat → ArrayUnit → ArrayUnit × Counts × Nat
  | 0, _, u => (u, {}, 0)
  | n + 1, i, u =>
    match meetRow split anchor i u with
    | none => (u, {}, 0)
    | some (v, c) =>
      let r := meetRows split anchor n (i + 1) v
      (r.1, c.add r.2.1, r.2.2 + 1)

/-! ### Draining and reducing (R64, R72..R75, R77) -/

/-- Bytes of a rounded result. -/
def roundBytes : OutFmt → Nat
  | .bf16 => 2 | _ => 4

/-- The words of a drained row and what the rounding counts; the BF16 path's FP32 entries are rounded to BF16 or kept. -/
def roundRow (a : AccRow) (out : OutFmt) (sat : Bool) : List Nat × Counts :=
  match a.kind with
  | .bf16 => (a.fps.map fun w => match out with
      | .bf16 => (match f32 w with
        | .fin n m e => (roundF bf16 sat n m e).1
        | v => encodeF bf16 v)
      | _ => w.toNat, {})
  | k =>
    let rs := a.sums.map (finalWord (k = .int8) out sat a.q)
    (rs.map (·.1), rs.foldl (fun c x => c.add x.2) {})

/-- The bytes of a spilled row: partials of R72, or the FP32 words of the BF16 path. -/
def spillBytes (a : AccRow) : List Byte :=
  match a.kind with
  | .bf16 => a.fps.flatMap fun w => leBytes 4 w.toNat
  | _ => a.sums.flatMap fun x => leBytes 16 (partialBits a.q x).toNat

/-! ### The run of a slice -/

/-- What a slice's operations work on: contents of the tiers, cells, counts, bytes outside the cells as they were, failed format
checks. -/
structure Run where
  mem : Memory
  cores : List (Nat × Core)
  counts : Counts := {}
  undo : List (Nat × Byte) := []
  faults : List FormatCheck := []

/-- Where and when a slice runs: its block, the time of its end, handshakes of a time span in its region. -/
structure RunAt where
  block : Nat
  now : Time
  hs : Nat → Nat
  /-- The model's tiles without a home: identifier, header, body as their master copies hold them (R382). -/
  homeless : List (Nat × BitVec 128 × List Byte) := []

/-- Offset of a cell store's working space: the resident tiles end before it (R87). -/
def workSpace : Nat := 120192

/-- The cell of an ordinal. -/
def Run.core (r : Run) (n : Nat) : Core := (getKey r.cores n).getD {}

/-- Changes a cell. -/
def Run.modCore (r : Run) (n : Nat) (g : Core → Core) : Run := { r with cores := setKey r.cores n (g (r.core n)) }

/-- An array of a cell. -/
def Core.array (c : Core) (k : Nat) : ArrayUnit := c.arrays.getD k {}

/-- Changes an array of a cell. -/
def Run.modArray (r : Run) (n k : Nat) (g : ArrayUnit → ArrayUnit) : Run :=
  r.modCore n fun c => { c with arrays := modAt c.arrays k g }

/-- Reads bytes of a tier. -/
def Run.read (r : Run) (p : Place) (n : Nat) : List Byte := r.mem.readAll (placeKey p) n

/-- Writes bytes; outside the cell stores what was there is kept until the end of the slice is certain (R84). The image area is
written by PARITY WRITE alone (R102). -/
def Run.write (r : Run) (p : Place) (bs : List Byte) : Run :=
  if !placeHolds p bs.length || p.tier = .image then r else
  let old := if p.tier = .cell then []
    else (List.range bs.length).map fun i => (placeKey p + i, r.mem.read (placeKey p + i))
  { r with mem := r.mem.writeAll (placeKey p) bs, undo := old ++ r.undo }

/-- A place in the store of a cell of the block. -/
def RunAt.store (x : RunAt) (cell off : Nat) : Place := ⟨.cell, x.block * 16 + cell, off⟩

/-- Little-endian words of `n` elements of `b` bytes. -/
def Run.words (r : Run) (p : Place) (b n : Nat) : List Nat := (List.range n).map fun i => ofLe (r.read (placeStep p (i * b)) b)

/-- The loader takes a tile into the shadow register, or rejects it; a homeless one is first copied from its master copy into the
working space of the cell (R62, R88, R89, R382). -/
def Run.load (x : RunAt) (r : Run) (n arr tile : Nat) : Run :=
  let held := (r.core n).headers.find? fun h => tlId h.2.toNat = tile
  match held with
  | none => match getKey x.homeless tile with
    | some t => (r.write ⟨.cell, n, workSpace⟩ t.2).modArray n arr fun u => { u with shadow := some ⟨t.1, t.2⟩ }
    | none => { r with faults := r.faults ++ [.loader tile none] }
  | some h =>
    if loaderOk (some h.2) then
      let body := r.read ⟨.cell, n, h.1⟩ (tileBodyBytes h.2.toNat)
      r.modArray n arr fun u => { u with shadow := some ⟨h.2, body⟩ }
    else { r with faults := r.faults ++ [.loader tile (some h.2)] }

/-- Partials of one output from every source. -/
def Run.partials (r : Run) (srcs : List Place) (i : Nat) : List (BitVec 128) :=
  srcs.map fun p => BitVec.ofNat 128 (ofLe (r.read (placeStep p (16 * i)) 16))

/-- Reduces `n` outputs; an output whose partials do not agree is discarded, and reported (R73). -/
def Run.reduce (r : Run) (n : Nat) (srcs : List Place) (put : Run → Nat → Int → Acc → Run) : Run :=
  (List.range n).foldl (fun r i =>
    let ps := r.partials srcs i
    match reduceParts ps with
    | some (q, a) => put r i q a
    | none => if srcs.isEmpty then r else { r with faults := r.faults ++ [.partials ps] }) r

/-- A result of the vector lane (R79): operand and result bytes, and the function. -/
def laneSizes : LaneFn → Nat × Nat
  | .bfAdd | .bfMul | .bfFma => (2, 2)
  | .toBf16 => (4, 2)
  | .toFp32 => (2, 4)
  | .fromInt8 => (1, 4)
  | _ => (4, 4)

/-- The value of an elementwise operation. -/
def laneWord (f : LaneFn) (a b c : Nat) : Nat :=
  let w (n : Nat) : F32 := BitVec.ofNat 32 n
  match f with
  | .add => (fAdd (w a) (w b)).toNat | .mul => (fMul (w a) (w b)).toNat | .fma => (fFma (w a) (w b) (w c)).toNat
  | .min => (fPick false (w a) (w b)).toNat | .max => (fPick true (w a) (w b)).toNat
  | .lt => (fCompare fLt (w a) (w b)).toNat | .le => (fCompare fLe (w a) (w b)).toNat
  | .eq => (fCompare (fun x y => fKey x = fKey y) (w a) (w b)).toNat
  | .bfAdd => bfAdd a b | .bfMul => bfMul a b | .bfFma => bfFma a b c
  | .toBf16 => encodeF bf16 (f32 (w a)) | .toFp32 => (toF32 (bf a)).toNat
  | .fromInt8 => (widen .int8 0 a).toNat
  | .exp2 => (fExp2 (w a)).toNat | .log2 => (fLog2 (w a)).toNat | .rsqrt => (fRsqrt (w a)).toNat | .recip => (fRecip (w a)).toNat
  | .tanh => (fTanh (w a)).toNat | .sigmoid => (fSigmoid (w a)).toNat | .gelu => (fGelu (w a)).toNat | .silu => (fSilu (w a)).toNat

/-- Blocks of 32 values. -/
def blocks32 (xs : List F32) : List (List F32) := chunks 32 xs.length xs

/-- A quantized row: bytes of the strip row (R90), its ROW_MAXEXP (R69), finite values saturated. -/
def quantRow (f : ElemFmt) (sat : Bool) (xs : List F32) : List Byte × Int × Nat :=
  let qs := (blocks32 xs).map (quantBlock f sat)
  (packCodes (elemBits f) (qs.flatMap (·.2.1)) ++ qs.map (fun q => BitVec.ofNat 8 q.1),
    ((qs.map (·.1)).filter (· ≠ 255)).foldl (fun (m : Int) (s : Nat) => max m ((s : Int) - 127)) (-127), (qs.map (·.2.2)).sum)

/-- A signed byte of a side vector (R90). -/
def sideExp (b : Nat) : Int := if b < 128 then b else (b : Int) - 256

/-- One operation of a slice. -/
def runOp (x : RunAt) (r : Run) (o : SliceOp) : Run :=
  match o with
  | .mode cell split => r.modCore (x.block * 16 + cell) fun c => { c with split := split }
  | .put cell off src len => if placeHolds src len then r.write (x.store cell off) (r.read src len) else r
  | .get cell off dst len => if placeHolds (x.store cell off) len then r.write dst (r.read (x.store cell off) len) else r
  | .load cell arr tile => r.load x (x.block * 16 + cell) arr tile
  | .switch cell arr => r.modArray (x.block * 16 + cell) arr fun u =>
      match u.shadow with
      | some t => { u with active := some t, shadow := none }
      | none => u
  | .refill cell arr fmt k n src side =>
    let b := stripBytes fmt k
    let rows := (List.range n).map fun i =>
      ({ fmt := fmt, k := k, bytes := r.read (placeStep src (i * b)) b, maxExp := sideExp (ofLe (r.read (placeStep side i) 1)) } : RingRow)
    r.modArray (x.block * 16 + cell) arr fun u => { u with ring := u.ring ++ rows }
  | .stream cell arr first n anchor =>
    let id := x.block * 16 + cell
    let c := r.core id
    let t := meetRows c.split anchor n first (c.array arr)
    let r1 := (r.modArray id arr fun _ => t.1).modCore id fun c => c.ramp (x.hs (x.now - c.rampAt)) t.2.2 x.now
    { r1 with counts := r1.counts.add t.2.1 }
  | .round cell arr row out sat off =>
    let id := x.block * 16 + cell
    let u := (r.core id).array arr
    let slot := row % accRows (r.core id).split
    match getKey u.acc slot with
    | some a =>
      if a.out = row then
        let w := roundRow a out sat
        let r1 := (r.modArray id arr fun u => { u with acc := dropKey u.acc slot }).write (x.store cell off)
          (w.1.flatMap (leBytes (roundBytes out)))
        { r1 with counts := r1.counts.add w.2 }
      else r
    | none => r
  | .spill cell arr row dst =>
    let id := x.block * 16 + cell
    let slot := row % accRows (r.core id).split
    match getKey ((r.core id).array arr).acc slot with
    | some a =>
      if a.out = row then (r.modArray id arr fun u => { u with acc := dropKey u.acc slot }).write dst (spillBytes a) else r
    | none => r
  | .reduce _ n srcs dst => r.reduce n srcs fun r i q a => r.write (placeStep dst (16 * i)) (leBytes 16 (partialBits q a).toNat)
  | .finish _ n srcs int8 out sat dst => r.reduce n srcs fun r i q a =>
      let w := finalWord int8 out sat q a
      let r1 := r.write (placeStep dst (roundBytes out * i)) (leBytes (roundBytes out) w.1)
      { r1 with counts := r1.counts.add w.2 }
  | .combine n parts dst => (List.range n).foldl (fun r i =>
      r.write (placeStep dst (4 * i)) (leBytes 4 (combineParts (parts.map fun p =>
        (p.1, BitVec.ofNat 32 (ofLe (r.read (placeStep p.2 (4 * i)) 4))))).toNat)) r
  | .lane cell f n a b c dst =>
    let z := laneSizes f
    let get (off : Nat) : List Nat := r.words (x.store cell off) z.1 n
    let ws := ((get a).zip ((get b).zip (get c))).map fun p => laneWord f p.1 p.2.1 p.2.2
    r.write (x.store cell dst) (ws.flatMap (leBytes z.2))
  | .laneReduce cell max n src dst =>
    let xs := (r.words (x.store cell src) 4 n).map (BitVec.ofNat 32)
    r.write (x.store cell dst) (leBytes 4 (if max then laneMax xs else laneSum xs).toNat)
  | .quant cell fmt sat bfIn n src dst side =>
    let xs := (r.words (x.store cell src) (if bfIn then 2 else 4) n).map fun w => if bfIn then toF32 (bf w) else BitVec.ofNat 32 w
    let q := quantRow fmt sat xs
    let r1 := (r.write (x.store cell dst) q.1).write (x.store cell side) [BitVec.ofInt 8 q.2.1]
    { r1 with counts := r1.counts.add { saturated := q.2.2 } }
  | .maxExp n parts dst => (List.range n).foldl (fun r i =>
      r.write (placeStep dst i) [BitVec.ofInt 8 ((parts.map fun p => sideExp (ofLe (r.read (placeStep p i) 1))).foldl max (-127))]) r

/-- All operations of a slice, in the plan's order. -/
def runSlice (x : RunAt) (ops : List SliceOp) (r : Run) : Run := ops.foldl (runOp x) r

end Sys2Proof.Machine
end

