-- ==== Sys2Proof/Machine/Mover.lean ====
section
/-!
DEFINITION. The parity-protected area (R102, R103), what the tile movers do (R88, R91, R92), master copies (R87, R104), the movers'
queues and their hazards (R94..R96), the region stewards' windows (R100), format checks (R386).
-/
namespace Sys2Proof.Machine

/-! ### The protected area (R102, R103) -/

/-- The stack of a die that holds data unit `u` of a stripe: the five that do not hold its parity, ascending. -/
def dataStack (stripe u : Nat) : Nat := if u < stripe % 6 then u else u + 1

/-- The channel that a stripe uses on each of its die's stacks (R102; log 167). -/
def stripeChannel (stripe : Nat) : Nat := Config.freeChannel stripe % 32

/-- The region of a die that owns a channel of its stacks (R11). -/
def channelRegion (c : Nat) : Nat := c / 4

/-- The unit of a stripe on a stack, as stored. -/
def State.unitBytes (s : State) (stack stripe : Nat) : List Byte := s.tiers.mem.readAll (stackKey stack (stripe * 512)) 512

/-- Bytewise exclusive or of units. -/
def xorUnits (us : List (List Byte)) : List Byte :=
  us.foldl (fun a u => (a.zip u).map fun p => p.1 ^^^ p.2) (List.replicate 512 0)

/-- A data unit, and whether it was reconstructed from the other four and the parity unit because its channel is fenced. -/
def State.dataUnit (s : State) (die stripe u : Nat) : List Byte × Bool :=
  let k := dataStack stripe u
  if s.channelFenced (6 * die + k) (stripeChannel stripe) then
    (xorUnits (((List.range 6).filter (· ≠ k)).map fun j => s.unitBytes (6 * die + j) stripe), true)
  else (s.unitBytes (6 * die + k) stripe, false)

/-- `n` bytes from a data offset of a die's image area on, and the units reconstructed for them. -/
def State.protRead (s : State) (die a n : Nat) : List Byte × Nat :=
  let us := (List.range (ceilDiv (a % 512 + n) 512)).map fun i => s.dataUnit die ((a / 512 + i) / 5) ((a / 512 + i) % 5)
  (((us.flatMap (·.1)).drop (a % 512)).take n, (us.filter (·.2)).length)

/-- PARITY WRITE of bytes from a stripe on, padded to whole stripes: five data units and their exclusive or (R102). -/
def parityWrite (m : Memory) (die stripe : Nat) (bs : List Byte) : Memory :=
  (List.range (ceilDiv bs.length 2560)).foldl (fun m i =>
    let t := stripe + i
    let data := (bs.drop (2560 * i)).take 2560
    let us := (List.range 5).map fun u => (((data.drop (512 * u)).take 512) ++ List.replicate 512 (0 : Byte)).take 512
    let m1 := us.zipIdx.foldl (fun m p => m.writeAll (stackKey (6 * die + dataStack t p.2) (t * 512)) p.1) m
    m1.writeAll (stackKey (6 * die + t % 6) (t * 512)) (xorUnits us)) m

/-! ### Format checks (R73, R88, R91, R386) -/

/-- What the format checks find at a block or in its region, recorded (R73, R88, R91, R386, R388; log 156): a tile without a
valid header is loaded again, a copy that does not decode is dropped and copied again, an output whose partials do not agree is
discarded. What passes its check is no fault. -/
def State.formatFault (s : State) (block : Nat) (c : FormatCheck) : State :=
  match c with
  | .loader tile h => if loaderOk h then s else s.record 0x0C 1 1 1 block 0 .recovered tile
  | .copy h body => if copyOk h.toNat body then s else s.record 0x0C 2 1 2 (blockRegion block) 0 .recovered (tlId h.toNat)
  | .partials ps => if partialsOk ps then s else s.record 0x0C 1 5 1 block 0 .done 0

/-! ### What a tile mover does (R92) -/

/-- Bytes at a place, and the units reconstructed for them. -/
def State.readPlace (s : State) (p : Place) (n : Nat) : List Byte × Nat :=
  if p.tier = .image then s.protRead p.unit p.off n else (s.tiers.mem.readAll (placeKey p) n, 0)

/-- The sequencer takes a header: it holds 8, and a new one takes the place of the oldest (R88; log 168). -/
def Core.hand (c : Core) (off : Nat) (h : BitVec 128) : Core :=
  let hs := (c.headers.filter fun x => x.1 ≠ off) ++ [(off, h)]
  { c with headers := hs.drop (hs.length - 8) }

/-- Bytes written to a place that plain copies reach. -/
def State.storePlace (s : State) (p : Place) (bs : List Byte) : State :=
  if placeHolds p bs.length && p.tier ≠ .image then
    { s with tiers := { s.tiers with mem := s.tiers.mem.writeAll (placeKey p) bs } }
  else s

/-- A RAW tile written to a place: a cell store takes the body and its sequencer the header, any other tier the header and then
the body (R88). -/
def State.storeTile (s : State) (p : Place) (h : Nat) (body : List Byte) : State :=
  if p.tier = .cell then
    let s1 := s.storePlace p body
    let c := (getKey s1.cells.cores p.unit).getD {}
    { s1 with cells := { s1.cells with cores := setKey s1.cells.cores p.unit (c.hand p.off (BitVec.ofNat 128 h)) } }
  else s.storePlace p (leBytes 16 h ++ body)

/-- A tile as it stands at a place: header, stored body, units reconstructed. -/
def State.tileAt (s : State) (p : Place) : BitVec 128 × List Byte × Nat :=
  let h := s.readPlace p 16
  let b := s.readPlace (placeStep p 16) (min 4096 (tlStored (ofLe h.1)))
  (BitVec.ofNat 128 (ofLe h.1), b.1, h.2 + b.2)

/-- SRAM tiers that a decompressed or transposed tile goes to. -/
def sramTier (t : Tier) : Bool := t = .region || t = .block || t = .cell

/-- COPY with decompression: the RAW tile is written, or the copy is reported and nothing is (R91). -/
def State.moveTile (s : State) (c : PlanCopy) : State :=
  let t := s.tileAt c.src
  let h := t.1.toNat
  let s1 := s.count 0x602101 t.2.2
  if !sramTier c.dst.tier then s1
  else if copyOk h t.2.1 then s1.storeTile c.dst (rawHeader h) (((decodeBody h t.2.1).elim [] (·.1)).take (tileBodyBytes h))
  else s1.formatFault (match c.dst.tier with
    | .cell => c.dst.unit / 16 | .block => c.dst.unit | _ => c.dst.unit * 24) (.copy t.1 t.2.1)

/-- One operation of a tile mover: only BF16, INT8 and FP32 tiles are transposed (R93). -/
def State.moveOne (s : State) (c : PlanCopy) : State :=
  match c.kind with
  | .copy =>
    let r := s.readPlace c.src c.len
    (s.count 0x602101 r.2).storePlace c.dst r.1
  | .tile => s.moveTile c
  | .transpose =>
    let t := s.tileAt c.src
    let h := t.1.toNat
    let s1 := s.count 0x602101 t.2.2
    if sramTier c.dst.tier && tileHeaderOk h && tlComp h = 0 && !tileScaled (tlFormat h) then
      s1.storeTile c.dst (turnHeader h) (transposeBody h t.2.1)
    else s1
  | .fill =>
    if sramTier c.dst.tier || c.dst.tier = .hub || c.dst.tier = .pool then
      s.storePlace c.dst ((List.range c.len).map fun i => BitVec.ofNat 8 (c.pattern.toNat / 2 ^ (8 * (i % 4))))
    else s
  | .parity =>
    if c.dst.tier = .image && c.dst.unit < 4 && c.dst.off % 2560 = 0 && (c.src.tier = .region || c.src.tier = .hub) then
      { s with tiers := { s.tiers with
        mem := parityWrite s.tiers.mem c.dst.unit (c.dst.off / 2560) (s.readPlace c.src c.len).1 } }
    else s

/-! ### Master copies (R87, R104) -/

/-- First stripe of a die's image area beyond those of its master copies. -/
def State.nextStripe (s : State) (die : Nat) : Nat :=
  (s.tiers.masters.filter fun m => m.die = die).foldl (fun n m => max n (m.stripe + ceilDiv m.len 2560)) 0

/-- A resident tile goes from its master copy into its cell (R104). -/
def State.loadMaster (s : State) (m : Master) : State :=
  s.moveTile { kind := .tile, src := ⟨.image, m.die, m.stripe * 2560⟩, dst := ⟨.cell, m.cell, m.off⟩ }

/-- A loaded model's tiles: each is written to the image area of its cell's die, in whole stripes, and a resident one copied from
there into its cell store (R87, R102). -/
def State.installTiles (s : State) (m : ModelRes) : State :=
  m.img.tiles.foldl (fun s t =>
    let die := t.cell / 3072
    let stripe := s.nextStripe die
    let bs := leBytes 16 t.header.toNat ++ t.body
    let x : Master := { slot := m.slot, cell := t.cell, off := t.off, die := die, stripe := stripe, len := bs.length }
    let s1 : State := { s with tiers := { s.tiers with
      mem := parityWrite s.tiers.mem die stripe bs, masters := s.tiers.masters ++ [x] } }
    if m.img.resident then s1.loadMaster x else s1) s

/-- At a boundary and at the end of a start's phase 7: what models no longer resident had goes, the tiles of those that are new are
placed (R87, R236, R402). -/
def State.placeTiles (s : State) : State :=
  let kept (slot : Nat) : Bool := s.img.models.any fun m => m.slot = slot && m.placed
  let s1 : State := { s with
    tiers := { s.tiers with
      masters := s.tiers.masters.filter fun m => kept m.slot
      queues := s.tiers.queues.map fun q => (q.1, q.2.filter fun j => kept j.slot) }
    img := { s.img with models := s.img.models.map fun m => { m with placed := true } } }
  (s.img.models.filter fun m => !m.placed).foldl State.installTiles s1

/-- A spare takes a fenced cell's place: its own store starts without tiles, and the resident tiles of the logical cell come from
their master copies (R104). -/
def State.reloadCell (s : State) (ord : Nat) : State :=
  let s1 : State := { s with cells := { s.cells with cores := dropKey s.cells.cores ord } }
  (s.tiers.masters.filter fun m => m.cell = ord).foldl State.loadMaster s1

/-! ### The queues (R94..R96) -/

/-- The tile mover that performs a copy: that of its SRAM side's region, else the first region of the die (log 169). -/
def moverRegion (c : PlanCopy) : Nat :=
  let of (p : Place) : Option Nat := match p.tier with
    | .cell => some (p.unit / 384) | .block => some (p.unit / 24) | .region => some p.unit
    | _ => none
  match of c.dst with
  | some r => r
  | none => match of c.src with
    | some r => r
    | none => c.dst.unit % 4 * 8

/-- A place in HBM. -/
def hbmTier (t : Tier) : Bool := t = .pool || t = .image

/-- Bytes of a copy at its destination. -/
def State.copyBytes (s : State) (c : PlanCopy) : Nat :=
  match c.kind with
  | .tile | .transpose => 16 + tlStored (ofLe (s.readPlace c.src 16).1)
  | _ => c.len

/-- HBM bytes that a copy moves under a share. -/
def State.hbmBytes (s : State) (c : PlanCopy) : Nat := if hbmTier c.src.tier || hbmTier c.dst.tier then s.copyBytes c else 0

/-- Two destinations overlap. -/
def State.clash (s : State) (a b : PlanCopy) : Bool :=
  a.dst.tier = b.dst.tier && a.dst.unit = b.dst.unit && decide (a.dst.off < b.dst.off + s.copyBytes b)
    && decide (b.dst.off < a.dst.off + s.copyBytes a)

/-- Layers of a model's plan. -/
def State.layersOf (s : State) (slot : Nat) : List PlanLayer := (s.model slot).elim [] fun m => m.img.layers

/-- Puts copies of a layer at the end of their regions' queues, in plan sequence order (R94). -/
def State.enqueue (s : State) (slot layer : Nat) (cs : List PlanCopy) : State :=
  cs.foldl (fun s c =>
    let r := moverRegion c
    let q := (getKey s.tiers.queues r).getD []
    { s with tiers := { s.tiers with
      queues := setKey s.tiers.queues r (q ++ [⟨slot, layer, c, s.hbmBytes c⟩]) } }) s

/-- A slice of layer l gets its block: the copies of the layers whose distance reaches back to l are issued, those of the next model
step counted on past the last layer, and with layer 0 of a model's first step the copies that no earlier step issued (R96). -/
def State.issueCopies (s : State) (slot l : Nat) : State :=
  let ls := s.layersOf slot
  let n := ls.length
  let first := l = 0 && (s.model slot).any fun m => !m.ahead
  let s1 := ls.zipIdx.foldl (fun s p =>
    let k := p.2
    let d := min 7 p.1.dist
    let s1 := if k < d && first then s.enqueue slot k p.1.copies else s
    if d ≤ k && k - d = l then s1.enqueue slot k p.1.copies
    else if k < d && k + n - min d n = l then s1.enqueue slot (k + n) p.1.copies
    else s1) s
  { s1 with img := { s1.img with models := s1.img.models.map fun m => if m.slot = slot then { m with ahead := true } else m } }

/-- Slices that have just got a block have their copies issued, a layer's once (R96). -/
def State.issueAll (s : State) : State :=
  let fresh := s.step.slices.filter fun x => x.block ≠ 768 && !x.issued
  let keys := (fresh.map fun x => (x.model, x.layer)).eraseDups.filter fun k =>
    !s.step.slices.any fun x => x.issued && x.model = k.1 && x.layer = k.2
  let s1 := keys.foldl (fun s k => s.issueCopies k.1 k.2) s
  { s1 with step := { s1.step with slices := s1.step.slices.map fun x => if x.block ≠ 768 then { x with issued := true } else x } }

/-- The copies that a layer's slices read have completed: only then is a slice dispatched (R94). -/
def State.copiesIn (s : State) (x : Slice) : Bool :=
  !s.tiers.queues.any fun q => q.2.any fun j => j.slot = x.model && j.layer = x.layer

/-- A copy waits: a slice that reads what it overwrites has not ended, or reads of its model's stripe are stalled (R94, R385). -/
def State.copyHeld (s : State) (j : MoverJob) : Bool :=
  (s.faults.stalled.contains j.slot && j.copy.src.tier = .image)
    || s.step.slices.any fun x => x.model = j.slot && !x.ended && x.layer < j.layer
        && ((s.layersOf j.slot).getD x.layer { slices := [] }).copies.any (s.clash j.copy)

/-! ### Shares (R100) -/

/-- Bytes that a region grants a use in a 1 µs window: 1/32 of its share in GB/s. -/
def shareGrant (bw : Nat) : Nat := bw * 1000 / 32

/-- What each use gets of a window: what it asks for within its grant, then what the others leave unrequested, in the order sweep,
generation, tables (the order: log 170). -/
def windowGrants (share want : Nat × Nat × Nat) : Nat × Nat × Nat :=
  let a := min share.1 want.1
  let b := min share.2.1 want.2.1
  let c := min share.2.2 want.2.2
  let spare := share.1 + share.2.1 + share.2.2 - a - b - c
  let a1 := min spare (want.1 - a)
  let b1 := min (spare - a1) (want.2.1 - b)
  let c1 := min (spare - a1 - b1) (want.2.2 - c)
  (a + a1, b + b1, c + c1)

/-- Grants of a region per window under the shares in force. -/
def State.windowShare (s : State) : Nat × Nat × Nat :=
  (shareGrant s.adm.bSweep, shareGrant s.adm.bGen, shareGrant (58980 - s.adm.bSweep - s.adm.bGen))

/-- A copy reads weights under the generation share; any other HBM copy runs under the table share (R37, R96). -/
def MoverJob.weights (j : MoverJob) : Bool := j.copy.src.tier = .image

/-- Copies of one queue within the grants of a window, in order; the first that is held, or for which no bytes are left, ends the
window. Answers what is left of the two grants. -/
def State.moveQueue (s : State) (r : Nat) : Nat → Nat → Nat → State × Nat × Nat
  | 0, g, t => (s, g, t)
  | fuel + 1, g, t =>
    match (getKey s.tiers.queues r).getD [] with
    | [] => (s, g, t)
    | j :: rest =>
      if s.copyHeld j then (s, g, t) else
      let k := min j.left (if j.weights then g else t)
      let g1 := if j.weights then g - k else g
      let t1 := if j.weights then t else t - k
      if k < j.left then
        ({ s with tiers := { s.tiers with queues := setKey s.tiers.queues r ({ j with left := j.left - k } :: rest) } }, g1, t1)
      else
        let s1 : State := { s with tiers := { s.tiers with queues := setKey s.tiers.queues r rest } }
        State.moveQueue (s1.moveOne j.copy) r fuel g1 t1

/-- What is asked of a region in a window: a running sweep takes its whole share, the queued copies their bytes. -/
def State.windowWant (s : State) (r : Nat) : Nat × Nat × Nat :=
  let q := (getKey s.tiers.queues r).getD []
  (if s.sweep.running.isSome then shareGrant s.adm.bSweep else 0,
    ((q.filter (·.weights)).map (·.left)).sum, ((q.filter fun j => !j.weights).map (·.left)).sum)

/-- One window of a region: a window that has begun goes on with what is left of it. -/
def State.runWindow (s : State) (r no : Nat) : State :=
  let w := (getKey s.tiers.windows r).getD {}
  let used : ShareWindow := if w.no = no then w else { no := no }
  let want := s.windowWant r
  let all := windowGrants s.windowShare (want.1, want.2.1 + used.gen, want.2.2 + used.tbl)
  let g := all.2.1 - used.gen
  let t := all.2.2 - used.tbl
  let x := s.moveQueue r (((getKey s.tiers.queues r).getD []).length) g t
  { x.1 with tiers := { x.1.tiers with
    windows := setKey x.1.tiers.windows r ⟨no, all.1, used.gen + (g - x.2.1), used.tbl + (t - x.2.2)⟩ } }

/-- The windows of a region from its last one up to the present one, while its queue moves. -/
def State.runWindows (s : State) (r : Nat) : Nat → Nat → State
  | 0, _ => s
  | n + 1, no =>
    if s.now / 1000 < no || ((getKey s.tiers.queues r).getD []).isEmpty then s
    else State.runWindows (s.runWindow r no) r n (no + 1)

/-- Every region's queue up to now. -/
def State.runMovers (s : State) : State :=
  (s.tiers.queues.map (·.1)).foldl (fun s r =>
    let w := (getKey s.tiers.windows r).getD {}
    let first := max w.no (s.now / 1000 - 64)
    s.runWindows r 65 first) s

end Sys2Proof.Machine
end

