-- ==== Sys2Proof/Machine/Stages.lean ====
section
/-!
DEFINITION. The stages of a request outside the sweep: tokenization, prompt copy, embedding, re-rank, cross-encode, selection,
passage fetch, packing, hand-off (R24..R28, R115, R150..R172, R179..R185, R207, R289, R292).
-/
namespace Sys2Proof.Machine

/-! ### Stage 2 -/

/-- The index version of a query in stages 2 and 3: the pinned one, that of the sweep it has booked, else the current one (R117,
log 22). -/
def State.queryVer (s : State) (r : Request) : Option IndexVer :=
  let w := r.payload.retr
  if rVersionSel w = 1 then s.boundVer w else
  match r.work.sweepNo, s.sweep.beQueue.find? fun q => q.fn = r.fn && q.tag = r.tag with
  | some n, _ => s.imgOf n
  | none, some q => s.imgOf (max q.sweep s.openSweep)
  | none, none => s.boundVer w

/-- The encoder a request's text goes through: that of its index version, else the one EMBED runs (R115, log 20). -/
def State.encoderOf (s : State) (r : Request) : Option ModelRes :=
  if r.op = 0x03 then s.embedder
  else if r.op = 0x01 || r.op = 0x02 then (s.queryVer r).bind fun v => s.encoder v.img.rotationId
  else if r.op = 0x04 then (s.liveVer r.work.version).bind fun v => s.encoder v.img.rotationId
  else none

/-- The vocabulary of the tokens a request keeps as its user text. -/
def State.mainVocab (s : State) (r : Request) : Option Nat :=
  if r.op = 0x06 then (s.model r.model).map (·.img.vocab)
  else if r.op = 0x02 || r.op = 0x03 then (s.encoderOf r).map (·.img.vocab)
  else (s.templateOf r).map (·.img.vocab)

/-- Tokens of a request's text under one vocabulary, and the ill-formed units counted (R180, R181). -/
def State.textTokens (s : State) (r : Request) (id : Option Nat) : Option (List Nat) × Nat :=
  match id.bind (s.vocabOf r) with
  | none => (some [], 0)
  | some v => tokenizeText v.img (oInMode r.payload.opts) r.payload.text

/-- Granules after stage 2: sized by the tokens there are (R25, log 26). -/
def State.trimGran (s : State) (r : Request) (n : Nat) : Granules :=
  let img := (if r.op = 0x01 || r.op = 0x02 then s.queryVer r else s.liveVer r.work.version).map (·.img)
  let hbm := if r.op = 0x06 then min r.gran.hbm (s.granulesFor r (s.model r.model) (n + r.maxNew) n none).hbm else r.gran.hbm
  { r.gran with hbm := hbm, hbmAt := fill r.gran.hbmAt hbm, hub := min r.gran.hub (textGranules n + bufferGranules r img) }

/-- Changes the first charge that a test names. -/
def cutFirst (p : Charge → Bool) (g : Charge → Charge) : List Charge → List Charge
  | [] => []
  | c :: r => if p c then g c :: r else c :: cutFirst p g r

/-- The tokens that a text left unused are released: of a GENERATE from its maximum context and its prefill share, n_pf staying;
of any other request from its embedding work, the first that it charged to the handshakes (R25, R43). -/
def State.freeTokens (s : State) (r : Request) (n : Nat) : State :=
  if r.op ≠ 0x06 then
    let b := dTextLen r.desc
    if b ≤ n then s else
    let mine (c : Charge) : Bool := c.fn = r.fn && c.tag = r.tag && c.ledger = .handshakes
    { s with adm := { s.adm with charges := cutFirst mine (fun c => { c with amount := ceilDiv (c.amount * n) b }) s.adm.charges } }
  else if r.bound ≤ n then s else
  let cut (c : Charge) : Charge :=
    if c.fn = r.fn && c.tag = r.tag && c.ledger = .handshakes then { c with amount := ceilDiv (c.amount * n) r.bound } else c
  ({ s with adm := { s.adm with charges := s.adm.charges.map cut } } : State).modReq r.fn r.tag fun r => { r with bound := n }

/-- The stage after stage 2 of an opcode. -/
def afterText (op : Nat) : Nat := if op = 0x05 then 11 else if op = 0x06 then 20 else 3

/-! ### TOKENIZE_DONE -/

/-- The end of stage 2 (R180, R181, R185). -/
def State.tokenized (r : Request) (s : State) : State :=
  let u := s.textTokens r (s.mainVocab r)
  let e := s.textTokens r ((s.encoderOf r).map (·.img.vocab))
  let s1 := s.count 0x401001 (max u.2 e.2)
  match u.1, e.1 with
  | some us, some es =>
    let r1 : Request := { r with
      gran := s1.trimGran r (max us.length es.length)
      work := { r.work with tokens := us, encTokens := es, stage := afterText r.op } }
    let s2 := s1.modReq r.fn r.tag fun _ => r1
    if r.op = 0x05 then s2.enterFetch r1 else s2.freeTokens r (if r.op = 0x06 then us.length else es.length)
  | _, _ => (s1.count 0x401002 1).finish r { status := .fieldReserved, final := true }

def execTokenizeDone (t f tag : Nat) (s : State) : Host.Outcome State Fault Refusal :=
  .next ((s.tick t).stageEnd f tag 2 State.tokenized)

/-! ### PROMPT_COPY_DONE (R207, R209) -/

/-- Sets a stream's complete prompt; its entry is then due for PREFILL at the next boundary (R207). -/
def State.setPrompt (s : State) (r : Request) (toks : List Nat) : State :=
  let slot := r.promise.handle / 65536
  let s1 := s.modSlot slot fun e => { e with prompt := toks.length }
  ({ s1 with seq := { s1.seq with streams := s1.seq.streams.map fun st =>
      if st.slot = slot then { st with promptToks := toks } else st } } : State).modWork r.fn r.tag
    fun k => { k with stage := 13, prompt := toks }

/-- A prompt token field is valid: reserved bits 0, below the vocabulary's TOKEN_COUNT (R145, R209). -/
def tokenField (count : Nat) (w : BitVec 32) : Bool := bits w.toNat 31 18 = 0 && bits w.toNat 17 0 < count

/-- The end of the copy of a prompt (R207). -/
def State.promptCopied (r : Request) (s : State) : State :=
  if gSrc r.payload.gen = 1 then s.setPrompt r r.work.tokens
  else
    let count := match ((s.model r.model).map (·.img.vocab)).bind (s.vocabOf r) with
      | some v => v.img.tokenCount
      | none => 0
    let ws := r.payload.prompt.take (gCount r.payload.gen)
    if ws.all (tokenField count) then s.setPrompt r (ws.map fun w => bits w.toNat 17 0)
    else s.finish r { status := .fieldReserved, final := true }

def execPromptCopyDone (t f tag : Nat) (s : State) : Host.Outcome State Fault Refusal :=
  .next ((s.tick t).stageEnd f tag 20 State.promptCopied)

/-! ### EMBED_DONE (R115, R150) -/

/-- The sketch of binarization outputs: bit i is 1 when output i is greater than zero (R115). -/
def sketchOf : List F32 → Nat
  | [] => 0
  | o :: r => (decide (!fNan o && 0 < fKey o)).toNat + 2 * sketchOf r

/-- The embedding as streamed blocks of 32, the last one filled with zeros (R76). -/
def streamBlocks (m : Rotation) (x : List F32) : List (Nat × List Nat) :=
  (chunks 32 x.length x).map fun b =>
    let q := quantBlock m.stream true (b ++ List.replicate (32 - b.length) 0#32)
    (q.1, q.2.1)

/-- One output of a rotation: the exact product of a row with the streamed embedding, rounded once to FP32 (R69, R70, R74, R115). -/
def rotateRow (m : Rotation) (bs row : List (Nat × List Nat)) : F32 :=
  let top := ((bs.filter fun b => b.1 ≠ 255).map fun b => (b.1 : Int) - 127).foldl max (-127)
  let acc := (row.zip bs).foldl (fun a p => (addTerm m.fmt m.stream (m.base + top) a (p.1.1, p.2.1, p.1.2, p.2.2)).1) {}
  BitVec.ofNat 32 (finalF fp32 false (m.base + top) acc).1

/-- The outputs of binarization: the rotation of the query's index applied to its embedding; where the image gives its matrix as no
operand, the outputs come with the command (R115, log 191). -/
def State.rotated (s : State) (r : Request) (x outs : List F32) : List F32 :=
  match (s.queryVer r).bind fun v => (s.encoder v.img.rotationId).bind fun e => e.img.matrices.find? fun m => m.id = v.img.rotationId with
  | some m => m.rows.map (rotateRow m (streamBlocks m x))
  | none => (s.queryVer r).elim outs fun v => outs.take (sketchBits v.img.format)

/-- FP32 words as bytes. -/
def wordBytes (l : List F32) : List Byte := l.flatMap fun w => leBytes 4 w.toNat

/-- Counts sketch NaNs in the entry and for the anomaly monitors (R115, R391). -/
def State.sketchNan (s : State) (n : Nat) : State :=
  let s1 := s.count 0x302009 n
  { s1 with cells := { s1.cells with sketchNan := s1.cells.sketchNan + n } }

/-- The query vector of a request and its count of NaN elements (R150). -/
def State.qvecOf (s : State) (r : Request) (x : List F32) : List Int × Nat :=
  match s.liveVer r.work.version with
  | some v => queryVec v.img.qscale x
  | none => ([], 0)

/-- The end of stages 3 and 4. -/
def State.embedded (x outs : List F32) (r : Request) (s : State) : State :=
  if r.op = 0x03 then
    let out := wordBytes x
    (s.writeResult r out).finishResult r .done out.length
  else if r.op = 0x04 then
    let q := s.qvecOf r x
    let k : Work := { r.work with embedding := x, qvec := q.1 }
    let s1 := (s.count 0x302009 q.2).modReq r.fn r.tag fun r => { r with work := k }
    s1.enterRank { r with work := k }
  else
    let os := s.rotated r x outs
    (s.sketchNan (os.filter fNan).length).modWork r.fn r.tag fun k => { k with
      embedding := x, sketch := sketchOf os, sketchReady := true, stage := 5 }

def execEmbedDone (t f tag : Nat) (x : List F32) (outs : List F32) (s : State) : Host.Outcome State Fault Refusal :=
  .next ((s.tick t).stageEnd f tag 3 (State.embedded x outs))

/-! ### RERANK_DONE (R151, R154) -/

/-- Own-shard candidates get their exact scores or are lost; others keep what their members answered. -/
def scoreCand (i : IndexImage) (q : List Int) (lostOrds : List Nat) (c : Cand) : Cand :=
  if shardOf c.id ≠ i.shardId then { c with lost := c.lost || c.score.isNone }
  else
    let o := c.id % 2 ^ 48
    if vecLost i o lostOrds then { c with lost := true }
    else
      let x := scoreOf i q o
      { c with score := some x.1, heads := x.2 }

/-- The end of stage 8: scores, losses counted and reported, the candidates in order. -/
def State.reranked (r : Request) (s : State) : State :=
  match s.liveVer r.work.version with
  | none => s
  | some v =>
    if !r.work.remote.isEmpty then s else
    let cs := r.work.cands.map (scoreCand v.img r.work.qvec r.work.lostOrds)
    let kept := sortBy byScore (cs.filter fun c => !c.lost)
    let lost := (cs.filter (·.lost)).length
    let bad := cs.filter fun c => shardOf c.id = v.img.shardId && vecMismatch v.img (c.id % 2 ^ 48) r.work.lostOrds
    let s1 := bad.foldl (fun s c => s.record 0x11 2 0 7 0 0 .done (c.id % 2 ^ 32)) (s.count 0x311003 lost)
    let k : Work := { r.work with cands := kept, rrDone := kept.length, rrLost := lost, stage := 10 }
    (s1.modReq r.fn r.tag fun r => { r with work := k }).enterCross { r with work := k }

def execRerankDone (t f tag : Nat) (s : State) : Host.Outcome State Fault Refusal :=
  .next ((s.tick t).stageEnd f tag 8 State.reranked)

/-! ### CROSS_ENCODE_DONE (R155, R156) -/

/-- The end of stage 9, given one logit for each cross-encoded candidate; the gathers have ended before it (R168). -/
def State.crossed (logits : List F32) (r : Request) (s : State) : State :=
  let cs := r.work.cands.take (kCeN r.payload.rank)
  if logits.length ≠ cs.length || !(r.work.feats.all fun g => g.await.isEmpty) then s else
  let scored := (cs.zip logits).map fun p => { p.1 with logit := some p.2 }
  let x := match s.crossModel r with
    | some m => (s.countFeatures r.payload.rank m r.work.feats cs, s.crossInputs r m cs)
    | none => (s, [])
  x.1.modWork r.fn r.tag fun k => { k with
    cands := sortBy byLogit scored, ceDone := scored.length, ceIn := x.2, feats := []
    nonFinite := (logits.filter fun l => !fFinite l).length, stage := 10 }

def execCrossEncodeDone (t f tag : Nat) (logits : List F32) (s : State) : Host.Outcome State Fault Refusal :=
  .next ((s.tick t).stageEnd f tag 9 (State.crossed logits))

/-! ### SELECT_DONE (R157, R158) -/

/-- The report and prompt of R166, and the retrieval result where the template asks for it (R133, R161). An ASK that ends with an
empty prompt writes its report alone (DEDUCED from R163, log 181). -/
def State.resultParts (s : State) (r : Request) (k : Work) : List Byte :=
  let w := r.payload.rank
  (if kRetReport w then reportBytes r.tag k else [])
    ++ (if kRetPrompt w && r.op ≠ 0x04 then k.prompt.flatMap fun t => leBytes 4 t else [])
    ++ (if r.op = 0x01 && ((s.templateOf r).any fun m => m.img.returnRetr) && !k.prompt.isEmpty then
        (match k.result with
          | some x => x.bytes r.tag
          | none => []) else [])

/-- The end of stage 10: RERANK ends here with its report (R169). -/
def State.selected (r : Request) (s : State) : State :=
  let x := selectCands r.payload.rank r.work.cands
  let k : Work := { r.work with cands := x.1, selMass := x.2.1, leftMass := x.2.2 }
  let s1 := s.modReq r.fn r.tag fun r => { r with work := k }
  if r.op = 0x04 then
    let out := s.resultParts r k
    (s1.writeResult r out).finishResult { r with work := k } .done out.length
  else s1.enterFetch { r with work := k }

def execSelectDone (t f tag : Nat) (s : State) : Host.Outcome State Fault Refusal :=
  .next ((s.tick t).stageEnd f tag 10 State.selected)

/-! ### PASSAGE_FETCH_DONE (R159) -/

/-- A selected own-shard passage is read, lost or forged. -/
def fetchCand (i : IndexImage) (v : Option VocabImage) (lostOrds : List Nat) (c : Cand) : Cand :=
  if !c.selected || shardOf c.id ≠ i.shardId then c
  else
    let o := c.id % 2 ^ 48
    if passageLost i o lostOrds then { c with lost := true }
    else
      let toks := passageTokens i o
      { c with tokens := toks, forged := match v with
        | some v => passageForged v toks
        | none => true }

/-- The end of stage 11; the request holds its index version no longer (R26, R137). -/
def State.fetched (r : Request) (s : State) : State :=
  match s.liveVer r.work.version with
  | none => s
  | some v =>
    if !r.work.remote.isEmpty then s else
    let voc := (s.img.vocabs.find? fun x => x.copy_ = v.vocab).map (·.img)
    let cs := r.work.cands.map (fetchCand v.img voc r.work.lostOrds)
    let lost := (cs.filter fun c => c.selected && c.lost).length
    let forged := (cs.filter fun c => c.selected && c.forged && !c.lost).length
    let s1 := (s.count 0x311004 lost).count 0x311005 forged
    (s1.modWork r.fn r.tag fun k => { k with cands := cs, fetchLost := lost, forged := forged, stage := 12 }).prune

def execPassageFetchDone (t f tag : Nat) (s : State) : Host.Outcome State Fault Refusal :=
  .next ((s.tick t).stageEnd f tag 11 State.fetched)

/-! ### Hand-off (R164, R165, R289, R292) -/

/-- Targets of a hand-off. -/
def handTargets (r : Request) : List Nat := [kTarget0 r.payload.rank, kTarget1 r.payload.rank].take (kTargets r.payload.rank)

/-- An ASK that ends in hand-off writes its result and completes with DONE (R165). -/
def State.endHandoff (s : State) (r : Request) (answer status id : Nat) : State :=
  let k : Work := { r.work with partnerAnswer := answer, partnerStatus := status, partnerId := id, awaiting := none }
  let out := s.resultParts r k
  (s.writeResult r out).finishResult { r with work := k } .done out.length

/-- The HANDOFF message of R289. -/
def State.sendHandoff (s : State) (r : Request) (id : Nat) : State :=
  let vocab := (s.templateOf r).elim 0 (·.img.vocab)
  s.emit (.fabric id 0x20 [r.tag, s.fab.ident, vocab, r.work.prompt.length, s.fab.ident]
    (handoffWire r.tag s.fab.ident vocab s.fab.ident { r.promise with kind := 2 }.encode r.payload.gen r.payload.opts r.payload.stops
      r.work.prompt))

/-- Attempts from target number `i` on: a target without an OPEN session counts as unanswered at once (R164). -/
def State.tryTargets (s : State) (r : Request) : Nat → List Nat → State
  | _, [] => s.endHandoff r 2 0 0
  | i, id :: rest =>
    if s.partner id || r.mirror then
      (if r.mirror then s else s.sendHandoff r id).modWork r.fn r.tag fun k => { k with stage := 14, awaiting := some id, attempt := i, since := s.now }
    else (s.count 0x311007 1).tryTargets r (i + 1) rest

/-- An attempt failed: cancelled at its target while the session is open, then the next target is tried; after the last
one the ASK ends (R164, R165). `cancel`: the target is to hear a cancellation. -/
def State.failTarget (s : State) (r : Request) (answer status : Nat) (cancel : Bool) : State :=
  match r.work.awaiting with
  | none => s
  | some id =>
    let s1 := s.count 0x311007 (!r.mirror).toNat
    let s2 := if cancel && s.partner id && !r.mirror then s1.emit (.fabric id 0x22 [r.tag] (cancelWire r.tag)) else s1
    let rest := (handTargets r).drop (r.work.attempt + 1)
    if rest.isEmpty then s2.endHandoff r answer status (if answer = 1 then id else 0)
    else s2.tryTargets r (r.work.attempt + 1) rest

/-- No answer within the hand-off wait (R164). -/
def State.handoffExpired (s : State) (f tag : Nat) : State :=
  match s.req f tag with
  | none => s
  | some r =>
    if r.work.stage = 14 && r.work.awaiting.isSome && r.work.since + s.entry 0x310004 ≤ s.now then
      s.failTarget r 2 0 true
    else s

def execHandoffWaitExpiry (t f tag : Nat) (s : State) : Host.Outcome State Fault Refusal :=
  .next ((s.tick t).handoffExpired f tag)

/-- The session toward an awaited target closed: the attempt counts as unanswered at once (R164). -/
def State.handoffsLost (s : State) (id : Nat) : State :=
  (s.reqs.filterMap fun r => if r.work.stage = 14 && r.work.awaiting = some id && !r.mirror then some (r.fn, r.tag) else none).foldl
    (fun s k => match s.req k.1 k.2 with
      | some r => s.failTarget r 2 0 false
      | none => s) s

/-! ### PACK_DONE (R163, R170) -/

/-- Packing of a request with its template. -/
def packWork (m : TemplateImage) (r : Request) : Work :=
  let w := r.payload.rank
  let sel := r.work.cands.filter (·.selected)
  let p := packPrompt m (kBudget w) (kMinPassage w) r.work.tokens sel
  { r.work with
    prompt := p.1, userCut := p.2.1, packed := p.2.2.packed, packedWhole := p.2.2.whole, truncated := p.2.2.trunc
    omitted := p.2.2.omitted, packLeft := if r.op = 0x05 then 0 else packLeftMass w r.work.cands p.2.2.packed }

/-- The end of stage 12: PACK ends; an ASK without a prompt token ends with LENGTH_EXCEEDS; else it generates here or hands
off (R24, R163, R164). -/
def State.packed (r : Request) (s : State) : State :=
  match s.templateOf r with
  | none => s
  | some m =>
    let k := packWork m.img r
    let r1 : Request := { r with work := k }
    let s1 := s.modReq r.fn r.tag fun r => { r with work := k }
    let out := s1.resultParts r1 k
    if r.op = 0x05 then (s1.writeResult r1 out).finishResult r1 .done out.length
    else if k.prompt.isEmpty then (s1.writeResult r1 out).finishResult r1 .lengthExceeds out.length
    else if kTargets r.payload.rank = 0 then
      let s2 := (s1.writeResult r1 out).modWork r.fn r.tag fun k => { k with resBytes := out.length }
      s2.setPrompt { r1 with work := { k with resBytes := out.length } } k.prompt
    else s1.tryTargets r1 0 (handTargets r)

def execPackDone (t f tag : Nat) (s : State) : Host.Outcome State Fault Refusal :=
  .next ((s.tick t).stageEnd f tag 12 State.packed)

/-! ### REMOTE_WAIT_EXPIRY (R160) -/

/-- Candidates of shards that did not answer are lost. -/
def State.shardsLost (s : State) (f tag : Nat) (shards : List Nat) : State :=
  (s.count 0x311006 shards.length).modWork f tag fun k => { k with
    remote := k.remote.filter fun sh => !shards.contains sh
    cands := k.cands.map fun c =>
      if shards.contains (shardOf c.id) && (k.stage ≠ 11 || c.selected) then { c with lost := true } else c }

/-- No shard that is still awaited answers in time. -/
def State.remoteExpired (s : State) (f tag : Nat) : State :=
  match s.req f tag with
  | none => s
  | some r => if r.work.remote.isEmpty || s.now < r.work.since + s.entry 0x310001 then s else s.shardsLost f tag r.work.remote

def execRemoteWaitExpiry (t f tag : Nat) (s : State) : Host.Outcome State Fault Refusal :=
  .next ((s.tick t).remoteExpired f tag)

end Sys2Proof.Machine
end

