-- ==== Sys2Proof/Machine/Sweep.lean ====
section
/-!
DEFINITION. The sweep conductor: slates, sweeps, speculative prefetch, merges, partner lists (R119..R133, R137..R142, R152,
R153).
-/
namespace Sys2Proof.Machine

/-! ### Slates (R120, R121) -/

/-- The module runs sweeps in this operating state: an index can be swept from READY on. -/
def sweeping (o : OpState) : Bool := o ∈ [.ready, .serving, .draining]

/-- A query can join a slate. -/
def Request.joins (r : Request) : Bool := r.work.stage = 5 && r.work.sketchReady && !r.cancelling && r.started

/-- A query's version selection allows a version (R117). -/
def Request.pinIs (r : Request) (v : Nat) : Bool := rVersionSel r.payload.retr ≠ 1 || rVersion r.payload.retr = v

/-- The slate position of a query of this member. -/
def posOf (member : Nat) (r : Request) : SlatePos :=
  { member := member, fn := r.fn, tag := r.tag, lc := r.lc && !r.withdrawn, admitT := r.promise.admitTime
    sketch := r.work.sketch, filters := r.payload.filters.take (rTerms r.payload.retr), k := rK r.payload.retr }

/-- Cancelled queries that wait for a slate or sit in the closed one end (R28). -/
def State.endWaiting (s : State) : State :=
  (s.reqs.filter fun r => r.work.stage = 5 && r.cancelling).foldl State.finishCancelled s

/-- BE queries pinned to a version that is no longer live end (R137, log 42). -/
def State.endStale (s : State) : State :=
  (s.sweep.beQueue.filterMap fun q => s.req q.fn q.tag).foldl (fun s r =>
    if rVersionSel r.payload.retr = 1 && (s.liveVer (rVersion r.payload.retr)).isNone
        && !(s.index.pub.any fun p => p.img.version = rVersion r.payload.retr) then
      s.finish r { status := .versionStale, final := true } else s) s

/-- LC queries booked on a sweep, in booking order. -/
def State.bookedOn (s : State) (n : Nat) : List Request :=
  (s.sweep.bookings.filter fun b => b.1 = n).filterMap fun b => s.req b.2.1 b.2.2

/-- BE queries that can join slate n of a version: those trimmed before in the order they were trimmed, then the others in admission
order (R44, R120). -/
def State.beFor (s : State) (n v : Nat) : List Request :=
  let ready (trimmed : Bool) := (s.sweep.beQueue.filter fun q => q.trimmed = trimmed && q.sweep ≤ n).filterMap fun q =>
    (s.req q.fn q.tag).filter fun r => r.joins && r.pinIs v
  ready true ++ sortBy (fun a b => a.promise.admitTime ≤ b.promise.admitTime) (ready false)

/-- Queries of this member that found no position go to the head of the BE part of the next slate (R120). -/
def State.trimQueries (s : State) (n : Nat) (rs : List Request) : State :=
  let isIn (q : BeQuery) : Bool := rs.any fun r => r.fn = q.fn && r.tag = q.tag
  let fresh : List BeQuery := rs.map fun r => { fn := r.fn, tag := r.tag, trimmed := true }
  let rest := s.sweep.beQueue.filter fun q => !isIn q
  let s1 : State := { s with
    sweep := { s.sweep with beQueue := rest.filter (·.trimmed) ++ fresh ++ rest.filter fun q => !q.trimmed }
    reqs := s.reqs.map fun r => if rs.any (fun x => x.fn = r.fn && x.tag = r.tag)
      then { r with work := { r.work with
        trimmed := true, trimNo := if r.work.trimmed then r.work.trimNo else n, sweepNo := none } } else r }
  s1.count 0x302004 rs.length

/-- Queries take positions in slate n of version v. -/
def State.takePositions (s : State) (n v : Nat) (rs : List Request) : State :=
  let isIn (f tag : Nat) : Bool := rs.any fun r => r.fn = f && r.tag = tag
  { s with
    reqs := s.reqs.map fun r => if isIn r.fn r.tag then { r with work := { r.work with version := v, sweepNo := some n } } else r
    sweep := { s.sweep with
      bookings := s.sweep.bookings.filter fun b => !isIn b.2.1 b.2.2
      beQueue := s.sweep.beQueue.filter fun q => !isIn q.fn q.tag } }

/-- LC queries of slate n whose sketch is not there yet keep a booking, of the next sweep (log 43). -/
def State.rebook (s : State) (n : Nat) : State :=
  { s with sweep := { s.sweep with bookings := s.sweep.bookings.map fun b => if b.1 = n then (n + 1, b.2) else b } }

/-! ### A sweep number is consumed -/

/-- What begins with sweep n: the version it streams becomes current, the sweep share in force (R99, R136). -/
def State.sweepBegins (s : State) (n : Nat) : State :=
  let s1 : State := { s with
    sweep := { s.sweep with
      nextNo := n + 1, closed := s.sweep.closed.filter fun c => n < c.1, quarters := 0
      groupItems := s.sweep.groupItems.filter fun i => n < i.1, groupFrom := s.sweep.groupFrom.filter fun m => n < m.1 }
    adm := { s.adm with bSweep := s.entry 0x601001 } }
  match s.index.pub with
  | some p => (match p.switchSweep with
    | some m => if m ≤ n then
        ({ s1.logged with
           sweep := { s1.sweep with origin := if 1 < p.img.members then p.img.origin else s1.sweep.origin }
           index := { live := ⟨p.vocab, p.img, p.digest, p.imageId, p.bytes⟩ :: s1.index.live, pub := none } } : State).prune
      else s1
    | none => s1)
  | none => s1

/-- A sweep with an empty slate does not stream (R122). -/
def State.skipSweep (s : State) (n : Nat) : State := (s.sweepBegins n).count 0x302002 1

/-- Empty slates that waited behind the sweep that begins consume their numbers (R51, R122). -/
def State.skipEmpty (s : State) : State :=
  s.sweep.closed.foldl (fun s c =>
    if s.sweep.closed.head? = some c && c.2.isEmpty && (s.imgOf c.1).any (fun v => v.img.members ≤ 1) then s.skipSweep c.1
    else s) s

/-! ### Group slates (R121) -/

/-- The class and trim mark of a position on the wire. -/
def itemOf (s : State) (p : SlatePos) : SlateItem :=
  { tag := p.tag, admitT := p.admitT, cls := if p.lc then 0 else 1, member := p.member
    trimmed := (s.req p.fn p.tag).any fun r => r.work.trimmed
    trimNo := (s.req p.fn p.tag).elim 0 fun r => r.work.trimNo
    k := p.k, sketch := p.sketch, filters := p.filters }

/-- Order of trimmed items: the sweep that trimmed them, then the member; those of one member stay in its order (R120, R121). -/
def trimLe (a b : SlateItem) : Bool := a.trimNo < b.trimNo || (a.trimNo = b.trimNo && a.member ≤ b.member)

/-- Order of items of one kind: admission, then member (R121, log 44). -/
def itemLe (a b : SlateItem) : Bool := a.admitT < b.admitT || (a.admitT = b.admitT && a.member ≤ b.member)

/-- The closed slate of a group from all items (R120, R121). -/
def groupSlate (items : List SlateItem) : List SlateItem :=
  (sortBy itemLe (items.filter fun i => i.cls = 0) ++ sortBy trimLe (items.filter fun i => i.cls ≠ 0 && i.trimmed)
    ++ sortBy itemLe (items.filter fun i => i.cls ≠ 0 && !i.trimmed)).take 256

/-- The position of an item: own queries by their function, others as hosted ones (log 46). -/
def State.posOfItem (s : State) (own : Nat) (i : SlateItem) : SlatePos :=
  let mine := if i.member = own then s.reqs.find? fun r => r.tag = i.tag && r.promise.admitTime = i.admitT else none
  { member := i.member, fn := match mine with
      | some r => r.fn
      | none => 3000 + i.member
    tag := i.tag, lc := i.cls = 0, admitT := i.admitT, sketch := i.sketch, filters := i.filters, k := i.k }

/-- The slate of sweep n is that of the owner: own BE candidates that do not fit are trimmed (R121). -/
def State.applySlate (s : State) (own n : Nat) (items : List SlateItem) : State :=
  match getKey s.sweep.closed n with
  | none => s
  | some mine =>
    let slate := items.map (s.posOfItem own)
    let out := mine.filter fun p => p.member = own && !(slate.any fun q => q.fn = p.fn && q.tag = p.tag)
    let s1 : State := { s with sweep := { s.sweep with closed := s.sweep.closed.map fun c => if c.1 = n then (n, slate) else c } }
    s1.trimQueries n (out.filterMap fun p => s.req p.fn p.tag)

/-- The owner closes the group's slate and sends it to every member (R121). -/
def State.ownerSlate (s : State) (i : IndexImage) (n : Nat) : State :=
  let items := groupSlate ((s.sweep.groupItems.filter fun i => i.1 = n).map (·.2))
  (s.applySlate i.member n items).toMembers i 0x11 [n] (slateWire (sketchBits i.format / 8) n items)

/-- The owner closes as soon as every member in service has sent its part (R121). -/
def State.ownerTry (s : State) (i : IndexImage) (n : Nat) : State :=
  if (List.range i.members).all fun m => !s.memberIn i m || s.sweep.groupFrom.contains (n, m) then s.ownerSlate i n else s

/-! ### SLATE_CLOSE -/

/-- The slate of the next open sweep closes, while sweeps before it may still run or wait (R51, R120, R121). -/
def State.slateClose (s : State) : State :=
  let n := s.openSweep
  match s.imgOf n with
  | none => s
  | some v =>
    if !sweeping s.mod.op || !s.scheduled || s.now + slateLead < s.sweepAt n then s else
    let s1 := s.endWaiting.endStale
    let lc := ((s1.bookedOn n).filter fun r => r.joins && r.pinIs v.img.version).take 256
    let be := s1.beFor n v.img.version
    let own := v.img.member
    let fit := be.take (256 - lc.length)
    let s2 := ((s1.takePositions n v.img.version (lc ++ fit)).rebook n).trimQueries n (be.drop (256 - lc.length))
    let slate := (lc ++ fit).map (posOf own)
    let s3 : State := { s2 with sweep := { s2.sweep with closed := s2.sweep.closed ++ [(n, slate)] } }
    if v.img.members ≤ 1 then (if slate.isEmpty && s2.sweep.closed.isEmpty then s3.skipSweep n else s3)
    else
      let items := slate.map (itemOf s3)
      if s3.isOwner v.img then
        ({ s3 with sweep := { s3.sweep with
            groupItems := s3.sweep.groupItems ++ items.map fun i => (n, i)
            groupFrom := (n, own) :: s3.sweep.groupFrom } } : State).ownerTry v.img n
      else s3.emit (.fabric (memberFab v.img (s3.owner v.img)) 0x10 [n] (slateWire (sketchBits v.img.format / 8) n items))

def execSlateClose (t : Nat) (s : State) : Host.Outcome State Fault Refusal := .next (s.tick t).slateClose

/-! ### SWEEP_START -/

/-- How many queries of a slate a sweep takes that begins late: BE queries go from its tail, only as far as the next start time needs
and only where the lanes are the limit; where no number is enough, as far as it helps (R49, R125; log 129). -/
def State.lateSize (s : State) (v : IndexVer) (n : Nat) (slate : List SlatePos) : Nat :=
  let feed (k : Nat) : Nat := s.feedAt v.img s.adm.bSweep (sizeClass k)
  let ends (k : Nat) : Time := s.now + feed k + tIns s.subLists k (sketchBits v.img.format)
  let lc := slate.length - (slate.reverse.takeWhile fun p => !p.lc).length
  let sizes := ((List.range (slate.length + 1)).filter (lc ≤ ·)).reverse
  if s.now ≤ s.sweepAt n || 1 < v.img.members || feed slate.length ≤ tStream (s.readLoad (storeBytes v.img)) s.adm.bSweep then slate.length
  else match sizes.find? fun k => ends k ≤ s.sweepAt (n + 1) with
    | some k => k
    | none => (sizes.find? fun k => feed k = feed lc).getD slate.length

/-- The slate of a sweep that begins late loses its tail of BE queries, which are trimmed (R49). -/
def State.trimTail (s : State) (v : IndexVer) (n : Nat) (slate : List SlatePos) : State × List SlatePos :=
  let k := s.lateSize v n slate
  (s.trimQueries n ((slate.drop k).filterMap fun p => s.req p.fn p.tag), slate.take k)

/-- A query of the slate enters stage 6. -/
def enterSweep (slate : List SlatePos) (r : Request) : Request :=
  if r.work.stage = 5 && slate.any (fun p => p.fn = r.fn && p.tag = r.tag) then { r with work := { r.work with stage := 6 } }
  else r

/-- The sweep of a closed slate starts (R51, R119): not before its time, nor while another runs. -/
def State.sweepStart (s : State) : State :=
  match s.sweep.closed.head? with
  | none => s
  | some (n, _) =>
    if s.sweep.running.isSome || s.now < s.sweepAt n || !sweeping s.mod.op then s else
    match s.imgOf n with
    | none => s
    | some v =>
      let s0 := if 1 < v.img.members && s.isOwner v.img && (s.sweep.groupFrom.any fun m => m.1 = n)
        && !((List.range v.img.members).all fun m => !s.memberIn v.img m || s.sweep.groupFrom.contains (n, m))
        then s.ownerSlate v.img n else s
      match s0.sweep.closed.head? with
      | none => s0
      | some (_, slate) =>
        if slate.isEmpty then s0.skipSweep n else
        let x := s0.endWaiting.trimTail v n slate
        let s2 := (x.1.sweepBegins n).count 0x302001 1
        ({ s2 with
          sweep := { s2.sweep with
            early := s2.sweep.early.filter fun e => n < e.1
            running := some { no := n, start := s2.now, version := v.img.version, slate := x.2
                              complete := s2.sweep.unswept.isEmpty
                              partners := (s2.sweep.early.filter fun e => e.1 = n).map (·.2) } }
          reqs := s2.reqs.map (enterSweep x.2) } : State).skipEmpty

def execSweepStart (t : Nat) (s : State) : Host.Outcome State Fault Refusal := .next (s.tick t).sweepStart

/-! ### PREFETCH_CHECKPOINT (R152) -/

/-- The lanes whose chunks the module sweeps (R141). -/
def State.sweptLanes (s : State) : List Nat := (List.range 32).filter fun l => !s.sweep.unswept.contains l

/-- The merge of the module's own lists over the first `quarter` quarters of each lane's chunks, rounded down (DESIGN CHOICE, log
179). -/
def provisional (i : IndexImage) (lanes : List Nat) (quarter k : Nat) (p : SlatePos) : List ListEntry :=
  let early (r : SketchRec) : Bool := r.ord / 131072 < laneChunks i.recordCount (laneOf r.ord) * quarter / 4
  let part : IndexImage := { i with records := i.records.filter early }
  (mergeQuery { k := k, terms := p.filters.length, own := i.shardId, member := i.member, shards := [i.shardId]
                complete := true, lanes := lanes.map (sweepLane part p.sketch p.filters), partners := [] }).entries

/-- Ordinals that a checkpoint asks MP for: the provisional first RR_N without a read, up to PREFETCH in all. -/
def specNew (w : BitVec 512) (issued : List Nat) (es : List ListEntry) : List Nat :=
  (((es.take (kRrN w)).map fun e => e.id % 2 ^ 48).filter fun o => !issued.contains o).take (kPrefetch w - issued.length)

/-- Speculative reads of one query at a checkpoint; none where its provisional merge does not end in time (R152). -/
def State.prefetch (i : IndexImage) (no quarter : Nat) (s : State) (p : SlatePos) : State :=
  match s.req p.fn p.tag with
  | none => s
  | some r =>
    if r.op ≠ 0x01 || r.work.stage ≠ 6 || kRrN r.payload.rank = 0 || kPrefetch r.payload.rank = 0
        || !Config.freeMerged no quarter r.tag then s else
    let fresh := specNew r.payload.rank r.work.specIssued (provisional i s.sweptLanes quarter (rK r.payload.retr) p)
    (s.modWork r.fn r.tag fun k => { k with specIssued := k.specIssued ++ fresh }).count 0x311001 fresh.length

/-- A checkpoint of the running sweep: each of the three is taken once, in order. -/
def State.checkpoint (s : State) (quarter : Nat) : State :=
  match s.sweep.running with
  | none => s
  | some w =>
    match s.liveVer w.version with
    | none => s
    | some v =>
      if quarter ≤ s.sweep.quarters || 3 < quarter then s
      else w.slate.foldl (State.prefetch v.img w.no quarter) { s with sweep := { s.sweep with quarters := quarter } }

def execPrefetchCheckpoint (t quarter : Nat) (s : State) : Host.Outcome State Fault Refusal :=
  .next ((s.tick t).checkpoint quarter)

/-! ### SWEEP_END (R123, R142) -/

/-- Lane lists of every position of a slate. -/
def slateLists (i : IndexImage) (lanes : List Nat) (slate : List SlatePos) : List (Nat × List LaneList) :=
  slate.zipIdx.map fun p => (p.2, lanes.map (sweepLane i p.1.sketch p.1.filters))

/-- The sweep ends, not while its reads of a stripe are stalled (R102, R385): lists, cross-check differences, units reconstructed, times (R51, R103, R123, R142). Cancelled queries end. -/
def State.sweepEnd (s : State) (diffs : List (Nat × Nat)) : State :=
  match s.sweep.running with
  | none => s
  | some w =>
    if s.faults.stalled.contains 64 then s else
    match s.liveVer w.version with
    | none => s
    | some v =>
      let lanes := s.sweptLanes
      let w1 : SweepRun := { w with
        lists := slateLists v.img lanes w.slate, complete := w.complete && s.sweep.unswept.isEmpty }
      let took := s.now - w.start
      let s1 : State := { s with
        sweep := { s.sweep with running := none, finished := s.sweep.finished ++ [w1] }
        cells := { s.cells with
          laneSuspects := s.cells.laneSuspects ++ diffs.map (·.1), sampleSuspects := s.cells.sampleSuspects ++ diffs.map (·.2) } }
      let s2 := ((s1.count 0x302008 diffs.length).count 0x602101 (s.onFenced (storeBytes v.img) / 512)).setEntry 0x300005 took
      let s3 := if s.periodAt w.no < took then s2.count 0x302003 1 else s2
      let mine (r : Request) : Bool := r.work.stage = 6 && w.slate.any fun p => p.fn = r.fn && p.tag = r.tag
      let s4 := (s3.reqs.filter fun r => mine r && r.cancelling).foldl State.finishCancelled s3
      { s4 with reqs := s4.reqs.map fun r => if mine r then { r with work := { r.work with stage := 7 } } else r }

def execSweepEnd (t : Nat) (diffs : List (Nat × Nat)) (s : State) : Host.Outcome State Fault Refusal :=
  .next ((s.tick t).sweepEnd diffs)

/-! ### Merges (R127..R132) -/

/-- A finished sweep with a position of a query. -/
def State.sweepOf (s : State) (f tag : Nat) : Option (SweepRun × Nat) :=
  s.sweep.finished.findSome? fun w =>
    (w.slate.zipIdx.find? fun p => p.1.fn = f && p.1.tag = tag && (getKey w.lists p.2).isSome).map fun p => (w, p.2)

/-- The largest T_feed + T_ins(256) over the shards of a group (R132), each with its own records and this module's share, fences and
sub-lists (PRESUMED, log 176). -/
def State.groupBound (s : State) (i : IndexImage) : Nat :=
  ((groupShards i).map fun sh => s.sweepBound { i with recordCount := recordsOf i sh } s.adm.bSweep).foldl max 0

/-- The deadline of partner lists of a sweep (R132). -/
def State.partnerDeadline (s : State) (i : IndexImage) (n : Nat) : Time := s.sweepAt n + s.groupBound i + s.pWait n

/-- Partner lists accepted for a position. -/
def SweepRun.partnersOf (w : SweepRun) (pos : Nat) : List PartnerSrc := (w.partners.filter fun p => p.1 = pos).map (·.2)

/-- A query waits for partner lists. -/
def isGroup (i : IndexImage) (r : Request) : Bool := decide (1 < i.members) && rScope r.payload.retr = 1

/-- Every other member in service has sent its list, or the deadline has passed (R132). -/
def State.partnersDone (s : State) (i : IndexImage) (w : SweepRun) (pos : Nat) : Bool :=
  decide (s.partnerDeadline i w.no ≤ s.now) || (List.range i.members).all fun m =>
    m = i.member || !s.memberIn i m || (w.partnersOf pos).any fun p => p.member = m

/-- The input of a query's merge (R131). -/
def mergeIn (i : IndexImage) (r : Request) (w : SweepRun) (pos : Nat) (group : Bool) : MergeIn :=
  { k := rK r.payload.retr, terms := rTerms r.payload.retr, own := i.shardId, member := i.member
    shards := if group then groupShards i else [i.shardId], complete := w.complete
    lanes := (getKey w.lists pos).getD [], partners := if group then w.partnersOf pos else []
    trimmed := r.work.trimmed, sweepNo := w.no, start := w.start, version := w.version }

/-- Member whose list counts for each other shard (R128, R160). -/
def sourcesOf (i : IndexImage) (ps : List PartnerSrc) : List (Nat × Nat) :=
  (groupShards i).filterMap fun sh =>
    if sh = i.shardId then none else
    let mine := ps.filter fun p => p.shard = sh
    let best := match lowest (mine.filter fun p => !p.incomplete) with
      | some p => some p
      | none => lowest mine
    best.map fun p => (sh, p.member)

/-- A position's lists are used up; a sweep without lists is forgotten, with its hold on its version. -/
def State.usePos (s : State) (n pos : Nat) : State :=
  let fs := (s.sweep.finished.map fun w => if w.no = n then { w with lists := dropKey w.lists pos } else w).filter
    fun w => !w.lists.isEmpty
  ({ s with sweep := { s.sweep with finished := fs } } : State).prune

/-- Work of an ASK after its merge: candidates, query vector, prefetched reads outside the first RR_N, of which those that were sent
are discarded and the others removed (R150, R151, R153). -/
def askWork (i : IndexImage) (r : Request) (x : RetrResult) (ps : List PartnerSrc) : Work × Nat :=
  let w := r.payload.rank
  let es := if kRrN w = 0 then x.entries else x.entries.take (kRrN w)
  let q := if kRrN w = 0 then ([], 0) else queryVec i.qscale r.work.embedding
  let own := (es.filter fun e => shardOf e.id = i.shardId).map fun e => e.id % 2 ^ 48
  ({ r.work with
      result := some x, cands := es.map fun e => { id := e.id }, qvec := q.1, sources := sourcesOf i ps
      specDiscarded := (r.work.specIssued.filter fun o => !own.contains o && Config.freeSent r.tag o).length }, q.2)

/-- The merge of a query completes: RETRIEVE ends with its result; an ASK goes on (R131, R133). -/
def State.finishMerge (s : State) (r : Request) (w : SweepRun) (pos : Nat) : State :=
  match s.liveVer w.version with
  | none => s
  | some v =>
    let m := mergeIn v.img r w pos (isGroup v.img r)
    let x := mergeQuery m
    let tags := mismatchTags (sortBy byId (laneEntries m.own m.member m.lanes ++ m.partners.flatMap (·.entries)))
    let s0 := (s.count 0x302005 x.saturated.toNat).count 0x302006 x.mismatch
    let s1 : State := { s0 with cells := { s0.cells with
      laneSuspects := s0.cells.laneSuspects ++ (tags.filter fun t => t / 32 = m.member).map (· % 32) } }
    if r.op = 0x01 then
      let k := askWork v.img r x (if isGroup v.img r then w.partnersOf pos else [])
      let s2 := ((s1.count 0x311002 k.1.specDiscarded).count 0x302009 k.2).modReq r.fn r.tag fun r => { r with work := k.1 }
      (s2.usePos w.no pos).enterRank { r with work := k.1 }
    else
      let out := x.bytes r.tag
      ((s1.usePos w.no pos).writeResult { r with work := { r.work with result := some x } } out).finishResult r x.status out.length

/-- The header of a partner list (R288). -/
def partnerHeader (i : IndexImage) (w : SweepRun) (pos : Nat) (x : RetrResult) : Nat :=
  w.no % 2 ^ 64 * 2 ^ 448 + x.filterPass % 2 ^ 64 * 2 ^ 384 + satField 32 x.tie * 2 ^ 352 + w.version * 2 ^ 336
    + i.shardId * 2 ^ 320 + i.member * 2 ^ 304 + pos * 2 ^ 288 + x.valid * 2 ^ 272 + x.dK * 2 ^ 256
    + x.saturated.toNat * 2 ^ 255 + (decide (x.valid < x.filterPass)).toNat * 2 ^ 254 + (!w.complete).toNat * 2 ^ 253

/-- The list of a position that another member admitted goes to its coordinator, up to the query's K entries (R132; log 47). -/
def State.sendPartner (s : State) (i : IndexImage) (w : SweepRun) (pos : Nat) (p : SlatePos) : State :=
  let x := mergeQuery { k := p.k, terms := p.filters.length, own := i.shardId, member := i.member, shards := [i.shardId]
                        complete := w.complete, lanes := (getKey w.lists pos).getD [], partners := [] }
  (s.emit (.fabric (memberFab i p.member) 0x12 [w.no, pos] (listWire (partnerHeader i w pos x) (x.entries.map (·.encode))))).usePos
    w.no pos

/-- MERGE_DONE of a query of this module, or of a hosted position. -/
def State.mergeDone (s : State) (f tag : Nat) : State :=
  match s.sweepOf f tag with
  | none => s
  | some (w, pos) =>
    match s.liveVer w.version, w.slate[pos]? with
    | some v, some p =>
      if 3000 ≤ f then s.sendPartner v.img w pos p
      else match s.req f tag with
        | none => s.usePos w.no pos
        | some r =>
          if r.work.stage ≠ 7 then s
          else if r.cancelling then (s.usePos w.no pos).finishCancelled r
          else if !isGroup v.img r || s.partnersDone v.img w pos then s.finishMerge r w pos
          else s.modWork f tag fun k => { k with result := some (mergeQuery (mergeIn v.img r w pos false)) }
    | _, _ => s

def execMergeDone (t f tag : Nat) (s : State) : Host.Outcome State Fault Refusal := .next ((s.tick t).mergeDone f tag)

/-- A query whose own merge has ended completes when its partner lists are all in or late. -/
def State.tryMerge (s : State) (f tag : Nat) : State :=
  match s.req f tag, s.sweepOf f tag with
  | some r, some (w, pos) =>
    (match s.liveVer w.version with
      | some v =>
        if r.work.stage = 7 && r.work.result.isSome && s.partnersDone v.img w pos then
          (if r.cancelling then (s.usePos w.no pos).finishCancelled r else s.finishMerge r w pos)
        else s
      | none => s)
  | _, _ => s

/-- The partner-list deadline of a sweep passes (R132). -/
def State.partnersLate (s : State) (n : Nat) : State :=
  match s.sweep.finished.find? fun w => w.no = n with
  | none => s
  | some w => (w.slate.map fun p => (p.fn, p.tag)).foldl (fun s k => s.tryMerge k.1 k.2) s

def execPartnerListDeadline (t sweepNo : Nat) (s : State) : Host.Outcome State Fault Refusal :=
  .next ((s.tick t).partnersLate sweepNo)

end Sys2Proof.Machine
end

