-- ==== Sys2Proof/Machine/Recovery.lean ====
section
/-!
DEFINITION. Withdrawal and re-evaluation (R48, R52..R54), recovery after a fault (R376..R379), fences (R13, R139..R141, R380..
R382), anomaly monitors and the start of glints (R391, R392).
-/
namespace Sys2Proof.Machine

/-! ### Withdrawal (R52, R53) -/

/-- A stream entry of R231 as a number. -/
def entryBits (handle status : Nat) (final lc mass : Bool) (ntok nbytes j off : Nat) : BitVec 128 :=
  BitVec.ofNat 128 (handle % 2 ^ 32 * 2 ^ 96 + status % 256 * 2 ^ 88 + final.toNat * 2 ^ 87 + lc.toNat * 2 ^ 86
    + mass.toNat * 2 ^ 85 + ntok % 16 * 2 ^ 80 + nbytes % 2 ^ 16 * 2 ^ 64 + j % 2 ^ 32 * 2 ^ 32 + off % 2 ^ 32)

/-- Queues a stream entry for the record of the step in progress. -/
def State.pendEntry (s : State) (route slot : Nat) (p : StreamPart) : State :=
  { s with step := { s.step with pend := s.step.pend ++ [⟨route, slot, p, none⟩] } }

/-- A withdrawn commitment runs as BE: its charges are relieved, a booking becomes a BE query (R53). The partner's copy of one issues
no entry, so it is not counted (R57). -/
def State.toBe (s : State) (r : Request) : State :=
  let booked := s.sweep.bookings.find? fun b => b.2.1 = r.fn && b.2.2 = r.tag
  let s1 := (s.relieve r.fn r.tag).modReq r.fn r.tag fun r => { r with withdrawn := true }
  let s2 : State := { s1 with sweep := { s1.sweep with
    bookings := s1.sweep.bookings.filter fun b => !(b.2.1 = r.fn && b.2.2 = r.tag)
    beQueue := match booked with
      | some b => s1.sweep.beQueue ++ [{ fn := r.fn, tag := r.tag, sweep := b.1 }]
      | none => s1.sweep.beQueue } }
  (if r.gen then s2.modSlot (r.promise.handle / 65536) fun e => { e with wdrawn := true } else s2).count 0x200022 (!r.mirror).toNat

/-- Withdraws one commitment: WITHDRAWN in the next record, a stream's as its entry, any other as a notice (R53, R232,
R234). -/
def State.withdraw (s : State) (r : Request) : State :=
  let s1 := s.toBe r
  if r.gen then
    let slot := r.promise.handle / 65536
    s1.pendEntry (s.slot slot).route slot ⟨entryBits r.promise.handle 0x20 false false false 0 0 (s.slot slot).generated 0, [], []⟩
  else s1.notice (s.outFn r.fn) (noticeBits .withdrawn r.tag r.promise.kind)

/-- Withdraws the latest commitments until every condition holds (R52); the number of requests bounds it. -/
def State.withdrawUntil (ok : State → Bool) : Nat → State → State
  | 0, s => s
  | n + 1, s =>
    if ok s then s else
    match s.latest with
    | none => s
    | some r => (s.withdraw r).withdrawUntil ok n

/-! ### Cells (R12, R13, R380, R381) -/

/-- Global block of a cell address. -/
def cellBlock (a : Nat) : Nat := (a / 2 ^ 14 % 4 * 8 + a / 2 ^ 11 % 8) * 24 + a / 64 % 32
/-- Logical cell of a cell address. -/
def cellNo (a : Nat) : Nat := a % 32
/-- A logical cell address of R12. -/
def cellAddrOk (a : Nat) : Bool := a < 65536 && a / 64 % 32 < 24 && a / 32 % 2 = 0 && a % 32 < 16
/-- Address of a logical cell of a block. -/
def cellAddr (block c : Nat) : Nat := block / 192 * 2 ^ 14 + block / 24 % 8 * 2 ^ 11 + block % 24 * 64 + c

/-- Physical cells of a block that are fenced. -/
def State.fenceWord (s : State) (b : Nat) : BitVec 17 := (getKey s.faults.fencedCells b).getD 0

/-- The physical cell behind a logical address (R13). -/
def State.physOf (s : State) (a : Nat) : Nat :=
  if getKey s.faults.spareOf (cellBlock a) = some (cellNo a) then 16 else cellNo a

/-- A logical cell has no silicon left. -/
def State.cellDead (s : State) (a : Nat) : Bool := (s.fenceWord (cellBlock a)).getLsbD (s.physOf a)

/-- A cell ordinal has no silicon: its logical cell, its block, region or die is fenced. -/
def State.ordDead (s : State) (n : Nat) : Bool := s.blockFenced (n / 16) || s.cellDead (cellAddr (n / 16) (n % 16))

/-- Bytes of a model's resident tiles that have no home: those its image places on cells without silicon, and of what it does not
place one by one a share for each such cell (R382; log 55). -/
def State.homelessOf (s : State) (m : ModelRes) : Nat :=
  if !m.img.resident then 0 else
  let size (t : PlanTile) : Nat := tileBodyBytes t.header.toNat
  ((m.img.tiles.filter fun t => s.ordDead t.cell).map size).sum
    + (12288 - s.workCells) * ceilDiv (m.img.cellBytes - (m.img.tiles.map size).sum) 12288

/-- Bytes that reads of fenced channels' units add to a model step of a streamed model (R103; log 171). -/
def State.rebuiltBytes (s : State) (m : ModelRes) : Nat := if m.img.resident then 0 else 4 * s.onFenced m.img.wStep

/-- A capacity loss: re-evaluated at the next boundary; LC admissions are refused until then (R52, R54). Tiles without silicon
are homeless: their bytes count in the model's W_STEP (R382), as do the reads that reconstruction adds (R103). -/
def State.capacityLoss (s : State) : State :=
  let models := s.img.models.map fun m => { m with homeless := s.homelessOf m, rebuilt := s.rebuiltBytes m }
  let s1 : State := { s with
    adm := { s.adm with reeval := true, refuseLc := true }, img := { s.img with models := models } }
  s1.setEntry 0x701007 ((models.map (·.homeless)).sum)

/-! ### Recovery (R376..R379) -/

/-- Chip (C4) or die (E6) level (R22). -/
def State.hpLevel (s : State) : Nat := if s.e6 then 3 else 4

/-- Chip (C4) or package (E6) level (R22, R389). -/
def State.pkgLevel (s : State) : Nat := if s.e6 then 5 else 4

/-- Chip (C4) or system (E6) level (R22, R389). -/
def State.sysLevel (s : State) : Nat := if s.e6 then 6 else 4

/-- The recovery or the catch-up of an earlier fault is still running, or deep dimming, which counts as one, lasts (R48, R55,
R379). -/
def State.faultRuns (s : State) : Bool := decide (s.now < s.faults.recoveryEnds) || s.step.lateNs ≠ 0 || s.power.deepDim

/-- A recovery begins: counted; during an earlier one or its catch-up it is a double fault, counted and recorded (R376,
R379). -/
def State.recovery (s : State) (level unitType unit : Nat) : State :=
  let s1 := s.count 0x701001 1
  let s2 : State := { s1 with faults := { s1.faults with
    recoveryEnds := s.now + 50000 } }
  if s.faultRuns then (s2.count 0x701003 1).record 0x14 level 0 unitType unit 0 .done 0 else s2

/-- The streams that a fault hit report RECOVERED (R378). -/
def State.hitStreams (s : State) (hits : List Hit) : State :=
  let mark (st : Stream) : Stream := if hits.any (fun h => h.fn = st.fn && h.tag = st.tag) then { st with recovered := true } else st
  { s with seq := { s.seq with streams := s.seq.streams.map mark } }

/-! ### Fences of cells and blocks (R13, R104, R380) -/

/-- A cell that a glint tests, as a suspect or as a reference: it has left scan order (R392). -/
def State.underTest (s : State) (a : Nat) : Bool :=
  s.faults.active.any fun g => g.cells.contains a || g.refs.any fun r => r.a = a || r.b = a

/-- Every logical cell that a slice's plan names works in a block, and none of them is under test (R381, R392). -/
def State.cellsWork (s : State) (b : Nat) (cells : BitVec 16) : Bool :=
  !s.blockFenced b && (((getKey s.faults.fencedCells b).isNone && s.faults.active.isNone)
    || (List.range 16).all fun c => !cells.getLsbD c || !(s.cellDead (cellAddr b c) || s.underTest (cellAddr b c)))

/-- The first block in scan order on which no slice runs and whose cells serve the slice (R14, R215, R381); 768: none. -/
def State.freeBlock (s : State) (slices : List Slice) (cells : BitVec 16) : Nat :=
  (s.scanOrder.find? fun b => !(slices.any fun x => x.block = b && !x.ended) && s.cellsWork b cells).getD 768

/-- Slices that ran on given blocks are hit and placed again, ahead of the slices not yet started (R377). -/
def State.redispatch (s : State) (on : Nat → Bool) : State :=
  let n := (s.step.slices.filter fun x => on x.block && !x.ended).length
  let moved := s.step.slices.foldl (fun (acc : List Slice) x =>
    acc.map fun y => if y.id = x.id && on x.block && !x.ended then { y with block := s.freeBlock (acc.filter fun z => z.id ≠ x.id) x.cells, issued := true }
      else y) s.step.slices
  ({ s with step := { s.step with slices := moved } } : State).count 0x701002 n

/-- Fences the silicon behind a logical cell (R13, R104, R380): the spare takes its address and its resident tiles, else C falls by 1. `action`: that of the
record, 4 spare substituted or 3 fenced when none is given. -/
def State.fenceCell (s : State) (a kind : Nat) (outcome : Status) (detail : Nat) (action : Option Nat) : State :=
  let b := cellBlock a
  if s.blockFenced b || s.cellDead a then s else
  let p := s.physOf a
  let spare := p ≠ 16 && (getKey s.faults.spareOf b).isNone
  let s1 : State := { s with faults := { s.faults with
    fencedCells := setKey s.faults.fencedCells b (s.fenceWord b ||| BitVec.ofNat 17 (2 ^ p))
    spareOf := if spare then setKey s.faults.spareOf b (cellNo a) else s.faults.spareOf } }
  let s2 := (s1.record kind 1 (action.getD (if spare then 4 else 3)) 0 a p outcome detail).raise 0x700005
  if spare then s2.reloadCell (b * 16 + cellNo a) else s2.capacityLoss

/-- Fences a block (R380). -/
def State.fenceBlock (s : State) (b kind : Nat) : State :=
  if s.blockFenced b then s else
  let s1 : State := { s with faults := { s.faults with fencedBlocks := s.faults.fencedBlocks ++ [b] } }
  (((s1.count 0x701004 1).record kind 2 3 1 b 0 .recovered 0).redispatch (· = b)).capacityLoss

/-! ### Sweeps after a fence (R139, R140) -/

/-- The allowance A in a request's promise (R43). -/
def Request.allowance (r : Request) : Nat := if r.promise.kind = 0 then 50000 * r.promise.steps + 50000 else 100000

/-- With the merge of a request's query ending at `e`, its result bound passes its due time: what follows the merge keeps its
bounds. -/
def Request.missesDue (r : Request) (e : Time) : Bool := r.lc && !r.withdrawn && decide (r.work.mergeBound + r.allowance < e)

/-- The partner wait in the merge bound of a query (R45). -/
def State.waitOf (s : State) (i : IndexImage) (n : Nat) (r : Request) : Nat :=
  if rScope r.payload.retr = 1 && 1 < i.members then roundUp (s.pWait n) 1000 else 0

/-- The sweep in progress takes a lost lane's chunks again after its own: LC queries whose result bound would pass its due time are
withdrawn before it does (R139). The end is projected as the start, twice T_feed, T_ins with two lists per query, T_mrg and the
partner wait (DESIGN CHOICE, log 177). -/
def State.sweepDelayed (s : State) : State :=
  match s.sweep.running with
  | none => s
  | some w =>
    match s.liveVer w.version with
    | none => s
    | some v =>
      let end_ := w.start + 2 * s.feedAt v.img s.adm.bSweep 256 + tIns 2 256 (sketchBits v.img.format) + tMrg
      let late := (w.slate.filterMap fun p => s.req p.fn p.tag).filter fun r => r.missesDue (end_ + s.waitOf v.img w.no r)
      late.foldl State.withdraw s

/-- Shortest whole µs that a store passes the test of R38 with (R140). -/
def State.shortestPeriod (s : State) (i : IndexImage) : Nat := roundUp (s.sweepBound i s.adm.bSweep) 1000

/-- Bookings of sweeps not begun whose due times the schedule would miss are withdrawn (R140). -/
def State.missedBookings (s : State) : State :=
  let closed := s.sweep.closed.flatMap fun c => c.2.map fun p => (c.1, p.fn, p.tag)
  let late (b : Nat × Nat × Nat) : Option Request := (s.req b.2.1 b.2.2).filter fun r => match s.imgOf b.1 with
    | some v => r.missesDue (s.sweepAt b.1 + s.sweepStages v.img (rScope r.payload.retr) b.1)
    | none => false
  ((closed ++ s.sweep.bookings).filterMap late).foldl State.withdraw s

/-- The schedule after a fence: the period is lengthened from the first unbooked sweep on when the test fails; bookings that the new
schedule would serve too late are withdrawn (R119, R140). -/
def State.resweep (s : State) : State :=
  match s.index.live.head? with
  | none => s
  | some v =>
    let n := s.unbooked
    if s.test38 v.img s.adm.bSweep (s.periodAt n) then s.missedBookings else
    let p := s.shortestPeriod v.img
    let s1 : State := { s with sweep := { s.sweep with segs := (n, s.sweepAt n, p) :: s.sweep.segs } }
    (s1.setEntry 0x300001 (p / 1000)).missedBookings

/-! ### Granules of lost units (R23, R106, R383, R384) -/

/-- The granules of a request without those on some dies and in some regions. -/
def Granules.outside (g : Granules) (die region : Nat → Bool) : Granules :=
  let keep (p : Nat → Bool) (l : List Nat) : List Nat := l.zipIdx.map fun x => if p x.2 then 0 else x.1
  let lost (p : Nat → Bool) (l : List Nat) : Nat := l.sum - (keep p l).sum
  { g with
    hbm := g.hbm - lost die g.hbmAt, region := g.region - lost region g.regionAt, block := g.block - lost region g.blockAt
    hbmAt := keep die g.hbmAt, regionAt := keep region g.regionAt, blockAt := keep region g.blockAt }

/-- A request that holds granules on lost dies or in fenced regions: one whose stream has begun and has lost its KV ends at the next
boundary (R384); any other gets granules anew elsewhere, or ends so when there is no room (R23, R106, R383; log 182). -/
def State.replaceOn (die region : Nat → Bool) (s : State) (k : Nat × Nat) : State :=
  match s.req k.1 k.2 with
  | none => s
  | some r =>
    let g := r.gran.outside die region
    let lost : Granules := { hbm := r.gran.hbm - g.hbm, region := r.gran.region - g.region, block := r.gran.block - g.block }
    if lost = {} then s else
    let s1 := s.modReq k.1 k.2 fun r => { r with gran := g }
    let f := s1.granFree
    if (lost.hbm ≠ 0 && r.work.stage = 13) || f.hbm < lost.hbm || f.region < lost.region || f.block < lost.block
    then s1.modReq k.1 k.2 fun r => { r with lostBy := 1 }
    else
      let p := s1.placeGran lost
      let add (n : Nat) (a b : List Nat) : List Nat := (List.range n).map fun i => a.getD i 0 + b.getD i 0
      s1.modReq k.1 k.2 fun r => { r with gran := { g with
        hbm := r.gran.hbm + lost.hbm, region := r.gran.region + lost.region, block := r.gran.block + lost.block
        hbmAt := add 4 g.hbmAt p.hbmAt, regionAt := add 32 g.regionAt p.regionAt, blockAt := add 32 g.blockAt p.blockAt } }

/-- At a boundary the granules that requests hold in fenced regions are replaced from free ones, in the order of admission (R383). -/
def State.replaceRegions (s : State) : State :=
  if s.faults.fencedRegions.isEmpty then s else
  ((sortBy (fun (a b : Request) => a.promise.admitTime ≤ b.promise.admitTime) s.reqs).map fun r => (r.fn, r.tag)).foldl
    (State.replaceOn (fun _ => false) s.faults.fencedRegions.contains) s

/-- Fences a region (R139, R380): its blocks, engines and lane. -/
def State.fenceRegion (s : State) (r kind : Nat) : State :=
  if s.regionFenced r then s else
  let s1 : State := { s with faults := { s.faults with fencedRegions := s.faults.fencedRegions ++ [r] } }
  let s2 := ((s1.count 0x701005 1).record kind s.hpLevel 3 2 r 0 .recovered 0).redispatch (· / 24 = r)
  s2.capacityLoss.sweepDelayed.resweep

/-- Fences a sweep lane alone, after a glint (R380, R393). -/
def State.fenceLane (s : State) (r detail : Nat) : State :=
  if s.laneOut r then s else
  let s1 : State := { s with faults := { s.faults with fencedLanes := s.faults.fencedLanes ++ [r] } }
  ((s1.record 0x10 2 3 10 r 0 .internalFault detail).sweepDelayed).resweep

/-! ### Anomaly monitors (R391) -/

/-- The L2 norm of a row's logits: an upward rounding of the sum of squares is compared with the squared limit. -/
def normFires (limit : F32) (logits : List (Nat × F32)) : Bool :=
  fLt (fMul limit limit) ((logits.map fun p => fMul p.2 p.2).foldl fAdd 0)

/-- One ANOMALY record per suspect, and the suspects await a glint (R391, R392). -/
def State.suspectCells (s : State) (cs : List Nat) : State :=
  let up := cs.filter fun a => cellAddrOk a && !s.blockFenced (cellBlock a) && !s.cellDead a
  let s1 := up.foldl (fun s a => (s.count 0x70100A 1).record 0x0D s.hpLevel 6 0 a (s.physOf a) .done 0) s
  { s1 with faults := { s1.faults with suspects := { s1.faults.suspects with
      cells := (s1.faults.suspects.cells ++ up).eraseDups } } }

/-- The same for sweep lanes. -/
def State.suspectLanes (s : State) (ls : List Nat) : State :=
  let up := ls.filter fun r => r < 32 && !s.laneOut r
  let s1 := up.foldl (fun s r => (s.count 0x70100A 1).record 0x0D s.hpLevel 6 10 r 0 .done 0) s
  { s1 with faults := { s1.faults with suspects := { s1.faults.suspects with
      lanes := (s1.faults.suspects.lanes ++ up).eraseDups } } }

/-- Working logical cells of a block. -/
def State.cellsOf (s : State) (b : Nat) : List Nat := (List.range 16).map (cellAddr b) |>.filter fun a => !s.cellDead a

/-- HP reads the cells' counters (R85) and evaluates the monitors (R391). -/
def State.monitors (s : State) : State :=
  let c := s.cells
  let s1 := (((((s.count 0x704001 c.nan).count 0x704002 c.inf).count 0x704003 c.clamped).count 0x704004 c.lowcut).count
    0x704005 c.saturated).count 0x704006 c.residue
  let exceeding := (c.nanByModel.filter fun p => s.entry 0x702002 < p.2).map (·.1)
  let nanCells := ((c.nanBlocks.filter fun p => exceeding.contains p.1).map (·.2)).eraseDups.flatMap s.cellsOf
  let s2 := ((s1.suspectCells nanCells).suspectCells c.normSuspects).suspectCells (c.sampleSuspects ++ c.digestSuspects)
  let s3 := s2.suspectLanes c.laneSuspects.eraseDups
  let s4 := if c.sketchNan = 0 then s3 else s3.suspectCells (match s3.scanOrder.head? with
    | some b => s3.cellsOf b
    | none => [])
  { s4 with cells := { cores := c.cores, fresh := c.fresh } }

/-! ### Glints (R392) -/

/-- What one glint tests: at most 16 cells with two references for each suspect. -/
def glintPart (g : Glint) : Glint × Glint :=
  let lanes := g.lanes.take 8
  let n := (16 - 2 * lanes.length) / 3
  (⟨g.cells.take n, lanes, []⟩, ⟨g.cells.drop n, g.lanes.drop 8, []⟩)

/-- Cells that may serve as a reference for a unit of a region: working, in another region, not suspect, not in use by this glint;
those on other dies where there are any (R392). -/
def State.refCells (s : State) (region : Nat) (used : List Nat) : List Nat :=
  let blocks (p : Nat → Bool) : List Nat := (s.scanOrder.filter p).flatMap s.cellsOf
  let free (l : List Nat) : List Nat := l.filter fun a => !used.contains a && !s.faults.suspects.cells.contains a
  let far := free (blocks fun b => b / 192 ≠ region / 8)
  if far.isEmpty then free (blocks fun b => b / 24 ≠ region) else far

/-- HP picks two references for a suspect; which two of those that may serve is free (R392, log 195). -/
def State.pickRefs (isLane : Bool) (s : State) (unit : Nat) : State :=
  match s.faults.active with
  | none => s
  | some g =>
    let region := if isLane then unit else cellBlock unit / 24
    let used := g.cells ++ g.refs.flatMap fun r => [r.a, r.b]
    let l := s.refCells region used
    let n := s.drawn.toNat
    match l[n % l.length]? with
    | none => s
    | some a =>
      let m := l.filter (· ≠ a)
      match m[n / 2 ^ 32 % m.length]? with
      | none => s
      | some b => { s.draw with faults := { s.faults with active := some { g with refs := g.refs ++ [⟨unit, isLane, a, b⟩] } } }

/-- HP starts a glint at a boundary when suspects wait and none runs; it picks the references (R392). -/
def State.startGlint (s : State) : State :=
  let g := s.faults.suspects
  if s.faults.active.isSome || (g.cells.isEmpty && g.lanes.isEmpty) then s else
  let p := glintPart g
  let s1 := ({ s with faults := { s.faults with active := some p.1, suspects := p.2, glintNo := s.faults.glintNo + 1 } } : State).count
    0x70100B 1
  p.1.lanes.foldl (State.pickRefs true) (p.1.cells.foldl (State.pickRefs false) s1)

end Sys2Proof.Machine
end

