-- ==== Sys2Proof/Machine/Transport.lean ====
section
/-!
DEFINITION. Ports and link frames (R273..R277), transport and sessions (R278..R284), time (R285, R286), and what every
message row does first (R279, R280, R287).
-/
namespace Sys2Proof.Machine

/-! ### The transport header (R279) -/

def hDest (h : BitVec 256) : Nat := bits h.toNat 255 224
def hSrc (h : BitVec 256) : Nat := bits h.toNat 223 192
def hDsess (h : BitVec 256) : Nat := bits h.toNat 191 176
def hSsess (h : BitVec 256) : Nat := bits h.toNat 175 160
def hTseq (h : BitVec 256) : Nat := bits h.toNat 159 128
def hMsg (h : BitVec 256) : Nat := bits h.toNat 127 120
def hClass (h : BitVec 256) : Nat := bits h.toNat 119 117
def hLen (h : BitVec 256) : Nat := bits h.toNat 95 64

/-- The fields that a message of a type must have: MSG, CLASS, MSG_LEN in range, RSVD 0 (R279, R287). -/
def hdrOk (msg cls : Nat) (h : BitVec 256) : Bool :=
  hMsg h = msg && hClass h = cls && 1 ≤ hLen h && hLen h ≤ 1048576 && bits h.toNat 114 96 = 0 && bits h.toNat 31 0 = 0

/-- A configurable fabric identifier (R278). -/
def validIdent (id : Nat) : Bool := 1 ≤ id && id ≤ 0xFFFFFFEF

/-- The header addresses this module and names a valid source. -/
def State.addressed (s : State) (h : BitVec 256) : Bool := s.fab.ident ≠ 0 && s.isSelf (hDest h) && validIdent (hSrc h)

/-- A discarded message (R287). -/
def State.discard (s : State) : State := if s.mod.op = .off then s else s.count 0xA20006 1

/-! ### Sessions -/

/-- Changes a session. -/
def State.modSession (s : State) (idx : Nat) (g : Session → Session) : State :=
  { s with fab := { s.fab with sessions := s.fab.sessions.map fun x => if x.idx = idx then g x else x } }

/-- Removes a session. -/
def State.dropSession (s : State) (idx : Nat) : State :=
  { s with fab := { s.fab with sessions := s.fab.sessions.filter fun x => x.idx ≠ idx } }

/-- Slots whose records go to a fabric return channel (R206). -/
def State.routedTo (s : State) (idx : Nat) : List Nat :=
  (s.seq.entries.filter fun e => e.2.state ≠ .free && e.2.route = 0x8000 + idx).map (·.1)

/-- An answer is awaited from an identifier (R280, R282). -/
def State.awaited (s : State) (id : Nat) : Bool :=
  s.reqs.any fun r => r.work.awaiting = some id
    || (r.work.remote.any fun sh => r.work.sources.any fun p => p.1 = sh && (match s.liveVer r.work.version with
      | some v => memberFab v.img p.2 = id
      | none => false))
    || (r.gather.any fun g => !g.2.await.isEmpty) || (r.update.any fun u => u.2.homes.any fun k => s.homeOf (keyTable k) (keyRow k) = id)

/-- A session's ROLES (R309). -/
def State.rolesOf (s : State) (x : Session) : Nat :=
  (s.fab.pinned.contains x.ident).toNat
    + 2 * (s.pool.ranges.any fun w => rgHome w = x.ident).toNat
    + 4 * (s.index.live.any fun v => 1 < v.img.members && v.img.memberIds.contains x.ident).toNat
    + 8 * (s.reqs.any fun r => (handTargets r).contains x.ident).toNat
    + 16 * (x.roles.getLsbD 4).toNat
    + 32 * (decide (s.entry 0xA10001 = x.ident)).toNat

/-- Role bits that keep a session from eviction: pinned, map home, group member, pair peer (R282). -/
def State.kept (s : State) (x : Session) : Bool :=
  let r := s.rolesOf x
  r % 8 ≠ 0 || 32 ≤ r

/-- Streams routed to a closing session end at the next boundary as though cancelled; they are counted (R282). -/
def State.endRouted (s : State) (idx : Nat) : State :=
  let slots := s.routedTo idx
  let hit (st : Stream) : Bool := slots.contains st.slot && st.ending.isNone
  let n := (s.seq.streams.filter hit).length
  ({ s with reqs := s.reqs.map fun r =>
      if s.seq.streams.any (fun st => hit st && st.fn = r.fn && st.tag = r.tag) then { r with cancelling := true } else r } : State).count
    0xA20005 n

/-- The module that answers for a member: itself, or the partner that took over from it, until a new session under its identifier
opens (R109, R306). -/
def State.standIn (s : State) (id : Nat) : Nat := (getKey s.fab.standIns id).getD id

/-- The loss of a module ends, at the next boundary, the streams of the split models that have it as a member, or as the partner
that took a member's place (R109). -/
def State.memberLost (s : State) (id : Nat) : State :=
  { s with reqs := s.reqs.map fun r =>
      if r.gen && (s.model r.model).any (fun m => m.img.split.any fun g => g.any fun x => s.standIn x = id) then { r with lostBy := 2 }
      else r }

/-- A member's partner has taken over: its streams go on, those among them that its loss was about to end (R109). -/
def State.memberKept (s : State) (lost survivor : Nat) : State :=
  let s1 : State := { s with fab := { s.fab with standIns := setKey s.fab.standIns lost survivor } }
  let of (r : Request) (x : Nat) : Bool := r.gen && (s.model r.model).any fun m => m.img.split.any (·.contains x)
  { s1 with reqs := s1.reqs.map fun r => if r.lostBy = 2 && of r lost then { r with lostBy := 0 } else r }

/-- What hangs on an Etnan channel goes with its session: dictionary and SPDM sessions (R338, R426). -/
def State.dropChannel (s : State) (idx : Nat) : State :=
  { s with
    dict := { s.dict with sessions := s.dict.sessions.filter fun d => !(d.transport = .etnan && d.channel = idx) }
    sec := { s.sec with spdm := s.sec.spdm.filter (fun p => !(p.etnan && p.chan = idx))
                        versionSent := s.sec.versionSent.filter fun v => !(v.1 && v.2.1 = idx) } }

/-- Answers awaited from a module whose session closed count as not received: candidates are lost, rows unserved (R280). -/
def State.answersLost (s : State) (id : Nat) : State :=
  let gone (g : GatherWork) : List Nat := g.await.filter fun row => s.copyOf g.table g.version row g.time = some id
  let late (g : GatherWork) : GatherWork :=
    { g with await := g.await.filter (fun row => !(gone g).contains row), unserved := g.unserved ++ gone g }
  let s1 : State := { s with reqs := s.reqs.map fun r => if r.mirror then r else
    { r with gather := r.gather.map fun p => (p.1, late p.2), work := { r.work with feats := r.work.feats.map late } } }
  s.reqs.foldl (fun s r =>
    let shards := (r.work.asked.filter fun p => p.2 = id && r.work.remote.contains p.1).map (·.1)
    if r.mirror || shards.isEmpty then s else s.shardsLost r.fn r.tag shards) s1

/-- A session closes (R280..R283): its index stays taken while streams are routed to it; what is awaited on it counts as
not received. -/
def State.closeSession (s : State) (x : Session) : State :=
  if x.state ≠ .opened then s.dropSession x.idx else
  let s1 : State := { s with tx := { s.tx with waiting := s.tx.waiting.filter fun q => bits q.hdr.toNat 175 160 ≠ x.lsess }, fab := { s.fab with
    changed := true, handles := s.fab.handles.filter fun h => h.1 ≠ x.ident } }
  let s2 := (s1.endRouted x.idx).dropChannel x.idx
  let s3 := if (s.routedTo x.idx).isEmpty then s2.dropSession x.idx else s2.modSession x.idx fun y => { y with state := .closing }
  (((s3.answersLost x.ident).memberLost x.ident).handoffsLost x.ident).homeLost x.ident

/-- A closing session's index is free once no stream is routed to it (R282). -/
def State.freeChannels (s : State) : State :=
  { s with fab := { s.fab with sessions := s.fab.sessions.filter fun x => x.state ≠ .closing || !(s.routedTo x.idx).isEmpty } }

/-- Sessions that may be evicted (R282). -/
def State.evictable (s : State) (x : Session) : Bool :=
  x.state = .opened && x.lastRx + 1000000000 ≤ s.now && !s.kept x && (s.routedTo x.idx).isEmpty && !s.awaited x.ident

/-- The one among them that has been idle longest. -/
def State.victimSession (s : State) : Option Session :=
  (s.fab.sessions.filter s.evictable).foldl (fun (m : Option Session) x => match m with
    | some b => if x.lastRx < b.lastRx then some x else m
    | none => some x) none

/-- Makes room in the table: a free index, after an eviction when the table is full (R282). -/
def State.roomSession (s : State) : State × Option Nat :=
  let idx (s : State) : Option Nat := (takeFree (s.fab.sessions.map (·.idx)) (s.fab.sessions.length + 1) 1 0).head?.filter (· < 4096)
  match idx s with
  | some i => (s, some i)
  | none =>
    match s.victimSession with
    | none => (s, none)
    | some x =>
      let s1 := (s.closeSession x).emit (.fabric x.ident 0x04 [x.rsess, x.lsess] (sessionWire s.fab.epoch.toNat 0))
      (s1, idx s1)

/-- The next session number: ascending, 0 skipped (R281). -/
def nextNumber (n : Nat) : Nat := if 65535 ≤ n then 1 else n + 1

/-- A new entry of the partner table with the next session number; its sequences begin anew. -/
def State.addSession (s : State) (x : Session) : State :=
  { s with tx := { s.tx with seqs := dropKey s.tx.seqs s.fab.nextSess }, fab := { s.fab with sessions := s.fab.sessions ++ [{ x with lsess := s.fab.nextSess }], nextSess := nextNumber s.fab.nextSess } }

/-- No open is tried toward the identifier for 1 ms (R281). -/
def State.openFailed (s : State) (id : Nat) : State :=
  ({ s with fab := { s.fab with
      unreachable := (s.fab.unreachable.filter fun p => p.1 ≠ id) ++ [(id, s.now)]
      opens := s.fab.opens.filter fun p => p.1 ≠ id } } : State).count 0xA20004 1

/-- The module opens a session toward an identifier that has none (R281). -/
def State.openToward (s : State) (id : Nat) : State :=
  if s.fab.ident = 0 || !validIdent id || s.isSelf id || s.fab.sessions.any (fun x => x.ident = id && x.state ≠ .closing)
      || s.fab.unreachable.any (fun p => p.1 = id && s.now < p.2 + 1000000) then s
  else match s.roomSession with
    | (s1, none) => s1.openFailed id
    | (s1, some i) =>
      let x : Session := { idx := i, ident := id, state := .opening, openedAt := s.now }
      let s2 := s1.addSession x
      ({ s2 with fab := { s2.fab with opens := s2.fab.opens ++ [(id, s.now)] } } : State).emit
        (.fabric id 0x01 [0, s1.fab.nextSess] (sessionWire s1.fab.epoch.toNat (s1.rolesOf x)))

/-- The identifiers that the module opens sessions toward (R280). -/
def State.wanted (s : State) : List Nat :=
  (s.pool.ranges.map rgHome
    ++ (s.index.live.flatMap fun v => if 1 < v.img.members then v.img.memberIds else [])
    ++ [s.entry 0xA10001] ++ s.fab.pinned).eraseDups

/-- Opens toward all of them. -/
def State.openWanted (s : State) : State := s.wanted.foldl State.openToward s

/-- Frames from a source: they keep its session and the pair alive (R281, R304). -/
def State.heard (s : State) (src : Nat) : State :=
  let s1 : State := { s with fab := { s.fab with sessions := s.fab.sessions.map fun x =>
    if x.ident = src && x.state = .opened then { x with lastRx := s.now } else x } }
  if src = s.entry 0xA10001 then { s1 with pair := { s1.pair with lastRx := s.now } } else s1

/-- The OPEN session that SRC and DSESS name (R287). -/
def State.sessionFor (s : State) (h : BitVec 256) : Option Session :=
  s.fab.sessions.find? fun x => x.state = .opened && x.ident = hSrc h && x.lsess = hDsess h

/-- TSEQ of a class after this one is 0 after 0xFFFF_FFFF (R280). -/
def advanceSeq (x : Session) (cls : Nat) : Session := { x with rxSeq := modAt x.rxSeq cls fun n => (n + 1) % 2 ^ 32 }

/-- An input of reflected work that the pair peer forwards in class 1 (R301; log 60). -/
def State.forwardOk (s : State) (x : Session) (msg : Nat) (h : BitVec 256) : Bool :=
  s.pair.state = .paired && x.ident = s.entry 0xA10001 && msg ∈ [0x12, 0x14, 0x21, 0x31] && hdrOk msg 1 h

/-- The header marks a forwarded input. -/
def isForward (h : BitVec 256) : Bool := hClass h = 1

/-- The primary of a reflected commitment forwards an input before it uses it (R301). -/
def State.forwardInput (s : State) (r : Request) (msg : Nat) (key : List Nat) (payload : List Byte) : State :=
  if r.covered = 2 && !r.mirror && s.pair.state = .paired then s.emitAs 1 (.fabric (s.entry 0xA10001) msg key payload) else s

/-- A DICTIONARY or SPDM message on a session: a frame of class 5 (R280, R281, R287). -/
def State.control (s : State) (idx : Nat) : State :=
  match s.fab.sessions.find? fun x => x.idx = idx && x.state = .opened with
  | some x => (s.heard x.ident).modSession idx fun y => advanceSeq y 5
  | none => s

/-- What every message row of a session does first: its session, its sequence, its header (R280, R287; messages arrive
reassembled, log 48). -/
def State.receive (s : State) (msg cls : Nat) (h : BitVec 256) (k : Session → State → State) : State :=
  if !s.addressed h then s.discard else
  match s.sessionFor h with
  | none => s.discard
  | some x =>
    let s1 := s.heard (hSrc h)
    if 6 ≤ hClass h then s1.discard
    else if x.rxSeq.getD (hClass h) 0 ≠ hTseq h then (s1.count 0xA20003 1).closeSession x
    else
      let s2 := s1.modSession x.idx fun y => advanceSeq y (hClass h)
      if hdrOk msg cls h || s.forwardOk x msg h then k (advanceSeq x (hClass h)) s2 else s2.discard

/-- The session numbering that an accepted open sets up: class 5 goes on after this message. -/
def openedBy (x : Session) (h : BitVec 256) (now : Time) : Session :=
  { x with state := .opened, rsess := hSsess h, openedAt := now, lastRx := now
           rxSeq := modAt [0, 0, 0, 0, 0, 0] 5 fun _ => (hTseq h + 1) % 2 ^ 32 }

/-- SESSION_OPEN: accepted, or refused when no entry is free. Sessions of a peer that opens anew close; an open of this
module's own toward the same peer is the session (R281). -/
def State.sessionOpen (s : State) (h : BitVec 256) : State :=
  if !s.addressed h || !hdrOk 0x01 5 h || hDsess h ≠ 0 then s.discard else
  let id := hSrc h
  let s1 := (s.fab.sessions.filter fun x => x.ident = id && x.state = .opened).foldl State.closeSession s
  match s1.fab.sessions.find? fun x => x.ident = id && x.state = .opening with
  | some x =>
    let s2 := s1.modSession x.idx fun y => openedBy { y with roles := y.roles ||| 16#8 } h s.now
    (({ s2 with fab := { s2.fab with
      changed := true, standIns := dropKey s2.fab.standIns id, opens := s2.fab.opens.filter fun p => p.1 ≠ id } } : State).heard id).emit
      (.fabric id 0x02 [hSsess h, x.lsess] (sessionWire s.fab.epoch.toNat (s2.rolesOf x)))
  | none =>
    match s1.roomSession with
    | (s2, none) => (s2.count 0xA20004 1).emit (.fabric id 0x03 [hSsess h, 0] (sessionWire s.fab.epoch.toNat 0))
    | (s2, some i) =>
      let x := openedBy { idx := i, ident := id, roles := 16#8 } h s.now
      let s3 := s2.addSession x
      (({ s3 with fab := { s3.fab with changed := true, standIns := dropKey s3.fab.standIns id } } : State).heard id).emit
        (.fabric id 0x02 [hSsess h, s2.fab.nextSess] (sessionWire s.fab.epoch.toNat (s3.rolesOf x)))

/-- The open of this module that an answer names (R281, R287). -/
def State.openFor (s : State) (h : BitVec 256) : Option Session :=
  s.fab.sessions.find? fun x => x.state = .opening && x.ident = hSrc h && x.lsess = hDsess h

/-- SESSION_ACCEPT. -/
def State.sessionAccept (s : State) (h : BitVec 256) : State :=
  if !s.addressed h || !hdrOk 0x02 5 h then s.discard else
  match s.openFor h with
  | none => s.discard
  | some x =>
    let s1 := s.modSession x.idx fun y => openedBy y h s.now
    ({ s1 with fab := { s1.fab with
      changed := true, standIns := dropKey s1.fab.standIns x.ident
      opens := s1.fab.opens.filter fun p => p.1 ≠ x.ident } } : State).heard x.ident

/-- SESSION_REFUSE. -/
def State.sessionRefuse (s : State) (h : BitVec 256) : State :=
  if !s.addressed h || !hdrOk 0x03 5 h then s.discard else
  match s.openFor h with
  | none => s.discard
  | some x => (s.dropSession x.idx).openFailed x.ident

/-- No answer to an open within 20 µs (R281). -/
def State.openTimeout (s : State) (id : Nat) : State :=
  match s.fab.sessions.find? fun x => x.state = .opening && x.ident = id with
  | none => s
  | some x => if x.openedAt + 20000 ≤ s.now then (s.dropSession x.idx).openFailed id else s

/-- A session that saw no frame for 3 ms closes (R281). -/
def State.idleTimeout (s : State) (idx : Nat) : State :=
  match s.fab.sessions.find? fun x => x.idx = idx && x.state = .opened with
  | none => s
  | some x => if x.lastRx + 3000000 ≤ s.now then s.closeSession x else s

def execSessionOpen (t : Nat) (hdr : BitVec 256) (_roles : Nat) (s : State) : Host.Outcome State Fault Refusal :=
  .next ((s.tick t).sessionOpen hdr)

def execSessionAccept (t : Nat) (hdr : BitVec 256) (_roles : Nat) (s : State) : Host.Outcome State Fault Refusal :=
  .next ((s.tick t).sessionAccept hdr)

def execSessionRefuse (t : Nat) (hdr : BitVec 256) (s : State) : Host.Outcome State Fault Refusal :=
  .next ((s.tick t).sessionRefuse hdr)

def execSessionClose (t : Nat) (hdr : BitVec 256) (s : State) : Host.Outcome State Fault Refusal :=
  .next ((s.tick t).receive 0x04 5 hdr fun x s => s.closeSession x)

def execSessionOpenTimeout (t ident : Nat) (s : State) : Host.Outcome State Fault Refusal :=
  .next ((s.tick t).openTimeout ident)

def execSessionIdleTimeout (t idx : Nat) (s : State) : Host.Outcome State Fault Refusal :=
  .next ((s.tick t).idleTimeout idx)

/-- A keepalive on every OPEN session (R281, R284; log 50). -/
def execKeepaliveSend (t : Nat) (s : State) : Host.Outcome State Fault Refusal :=
  let s1 := s.tick t
  .next ((s1.fab.sessions.filter fun x => x.state = .opened).foldl
    (fun s x => s.emit (.fabric x.ident 0x05 [x.rsess, x.lsess] (timeWire s.now))) s1)

/-- The path bound takes a delay (R284). -/
def State.pathSample (s : State) (id : Nat) (sent : Time) : State :=
  { s with fab := { s.fab with sessions := s.fab.sessions.map fun x =>
      if x.ident = id && x.state = .opened then { x with paths := ((s.now - sent) :: x.paths).take 64 } else x } }

def execKeepalive (t : Nat) (hdr : BitVec 256) (sent : Time) (s : State) : Host.Outcome State Fault Refusal :=
  .next ((s.tick t).receive 0x05 5 hdr fun x s => s.pathSample x.ident sent)

/-! ### Links (R273..R277) -/

def lSeq (h : BitVec 128) : Nat := bits h.toNat 127 112
def lAck (h : BitVec 128) : Nat := bits h.toNat 111 96
def lClass (h : BitVec 128) : Nat := bits h.toNat 95 93
def lNak (h : BitVec 128) : Bool := bits h.toNat 92 92 = 1
def lLen (h : BitVec 128) : Nat := bits h.toNat 91 80
def lCrClass (h : BitVec 128) : Nat := bits h.toNat 79 77
def lCrUnits (h : BitVec 128) : Nat := bits h.toNat 76 64

/-- A frame with a good CRC and fields in range (R275). -/
def frameOk (h : BitVec 128) (crcOk : Bool) : Bool := crcOk && lClass h ≤ 5 && lLen h ≤ 128 && bits h.toNat 63 0 = 0

/-- A port's state. -/
def State.port (s : State) (p : Nat) : Port := s.fab.ports.getD p {}

/-- Changes a port. -/
def State.modPort (s : State) (p : Nat) (g : Port → Port) : State :=
  { s with fab := { s.fab with ports := modAt s.fab.ports p g } }

/-- Changes a lane of a port. -/
def State.modLane (s : State) (p l : Nat) (g : Lane → Lane) : State :=
  s.modPort p fun x => { x with lanes := modAt x.lanes l g }

/-- Lanes in service of a port, as the mask of LINK_HELLO and LANE_MAP. -/
def laneMask (x : Port) : Nat := (x.lanes.zipIdx.map fun l => if l.1.inService then 2 ^ l.2 else 0).sum

/-- The port is in service while a lane is (R274). -/
def settle (x : Port) : Port := { x with inService := x.inService && x.lanes.any (·.inService) }

/-- A link frame that may need replay is sent (R276). -/
def State.sendFrame (s : State) (p : Nat) : State :=
  s.modPort p fun x => { x with txSeq := x.txSeq + 1, replay := (x.replay ++ [(x.txSeq, 0)]).drop (x.replay.length + 1 - 1024) }

/-- Own covered commitments that still promise, the latest ADMIT_TIME (R297). -/
def State.latestCovered (s : State) : Option Request :=
  (s.reqs.filter fun r => r.covered ≠ 0 && !r.mirror && r.lc && !r.withdrawn).foldl (fun (m : Option Request) r => match m with
    | some b => if b.promise.admitTime < r.promise.admitTime then some r else m
    | none => some r) none

/-- Removes the coverage of one commitment: it keeps its promise and goes on unmirrored. -/
def State.uncover (s : State) (r : Request) : State :=
  let s1 := s.modReq r.fn r.tag fun q => { q with covered := 0 }
  (if r.gen then s1.modSlot (r.promise.handle / 65536) fun e => { e with role := .unpaired } else s1).count 0xA20009 1

/-- After the loss of a direct port coverage is removed, latest first, until the mirror ledger fits (R297). -/
def State.fitMirror : Nat → State → State
  | 0, s => s
  | n + 1, s =>
    if s.ledgerOk .mirror then s else
    match s.latestCovered with
    | none => s
    | some r => State.fitMirror n (s.uncover r)

/-- A lane leaves service: both ends hear of it (R274). -/
def State.removeLane (s : State) (p l : Nat) : State :=
  let s1 := (s.modLane p l fun x => { x with inService := false, trained := false, fec := false }).modPort p settle
  State.fitMirror s.reqs.length ((s1.count 0xA20002 1).emit (.link p 0 [laneMask (s1.port p)]))

/-- Unacknowledged frames are replayed and counted; one replayed 8 times removes the lane it last failed on (R276). -/
def State.replay (s : State) (p lane : Nat) : State :=
  let fs := (s.port p).replay
  let s1 := fs.foldl (fun s f => s.emit (.link p 2 [f.1.toNat])) (s.count 0xA20001 fs.length)
  let s2 := s1.modPort p fun x => { x with replay := x.replay.map fun f => (f.1, f.2 + 1) }
  if fs.any (fun f => 8 ≤ f.2 + 1) && ((s2.port p).lanes.getD lane {}).inService then
    (s2.modPort p fun x => { x with replay := x.replay.map fun f => (f.1, 0) }).removeLane p lane
  else s2

/-- LINK_HELLO: this module's identifier, the lanes that have FEC lock, the credits that its buffers give per class (R273). -/
def State.sendHello (s : State) (p : Nat) : State :=
  let lanes := ((s.port p).lanes.zipIdx.map fun l => if l.1.fec then 2 ^ l.2 else 0).sum
  s.emit (.link p 3 ([s.fab.ident, lanes] ++ (List.range 6).map Config.freeCredits))

/-- A link-layer reset of a port: it comes up again through LINK_HELLO (R276). -/
def State.resetLink (s : State) (p : Nat) : State :=
  let s1 := s.modPort p fun x => { x with
    inService := false, txSeq := 0, rxSeq := 0, replay := []
    lanes := x.lanes.map fun l => { l with inService := false } }
  State.fitMirror s.reqs.length (s1.sendHello p)

/-- The lane on which a numbered frame went out: the lanes in service take frames in turn (R274). -/
def laneOfSeq (x : Port) (n : Nat) : Nat :=
  let ls := (List.range 4).filter fun l => (x.lanes.getD l {}).inService
  ls.getD (n % ls.length) 0

/-- Acknowledged frames leave the replay buffer; credits come back; NAK replays (R275..R277). -/
def State.linkBack (s : State) (p : Nat) (h : BitVec 128) : State :=
  let s1 := s.modPort p fun x => { x with
    replay := x.replay.filter fun f => 32768 ≤ (lAck h + 65536 - f.1.toNat) % 65536
    credits := modAt x.credits (lCrClass h) fun c => c + lCrUnits h }
  if lNak h then s1.replay p (laneOfSeq (s1.port p) ((s1.port p).replay.head?.elim 0 fun f => f.1.toNat)) else s1

/-! ### Frames of messages (R274..R277) -/

/-- The port that frames toward a module take: one whose neighbour it is, else the lowest in service (log 49). -/
def State.pathPort (s : State) (dest : Nat) : Option Nat :=
  let on := (List.range 16).filter fun p => (s.port p).inService
  (on.find? fun p => (s.port p).neighbour = dest).orElse fun _ => on.head?

/-- The port of a fragment: its own, else its destination's. -/
def State.portOf (s : State) (q : TxFrame) : Option Nat := q.port.orElse fun _ => s.pathPort q.dest

/-- LEN of a fragment's frame, its bytes with link header and CRC, and the credits that it takes (R275, R277). -/
def TxFrame.units (q : TxFrame) : Nat := ceilDiv (32 + q.len) 32
def TxFrame.size (q : TxFrame) : Nat := 20 + 32 * q.units
def TxFrame.credits (q : TxFrame) : Nat := ceilDiv q.size 64

/-- The oldest fragment of a class for a port, if the port may send it: it has the credits, and room in its replay buffer (R276, R277). -/
def State.head (s : State) (p cls : Nat) : Option TxFrame :=
  (s.tx.waiting.find? fun q => q.cls = cls && s.portOf q = some p).filter fun q =>
    q.credits ≤ (s.port p).credits.getD cls 0 && (s.port p).replay.length < 1024

/-- The link header of a port's next frame (R275). -/
def Port.header (x : Port) (q : TxFrame) : Nat :=
  x.txSeq.toNat * 2 ^ 112 + (x.rxSeq - 1).toNat * 2 ^ 96 + q.cls * 2 ^ 93 + q.units * 2 ^ 80

/-- A fragment leaves on a port: it spends credits and waits in the replay buffer for its acknowledgement. -/
def State.leave (s : State) (p : Nat) (q : TxFrame) : State :=
  let h := (s.port p).header q
  let s1 : State := { s with tx := { s.tx with waiting := s.tx.waiting.erase q } }
  ((s1.modPort p fun x => { x with credits := modAt x.credits q.cls fun c => c - q.credits }).sendFrame p).emit
    (.link p 5 [h, q.hdr.toNat])

/-- What a class of the round robin may send when its turn comes: its weight times the longest frame (R277; log 49). -/
def drrQuantum (turn : Nat) : Nat := ([4, 4, 6, 1].getD turn 0) * 4116

/-- The round robin of a port. -/
def State.drr (s : State) (p : Nat) : Drr := (getKey s.tx.drr p).getD {}
def State.setDrr (s : State) (p : Nat) (d : Drr) : State := { s with tx := { s.tx with drr := setKey s.tx.drr p d } }

/-- The turn passes on; a class that sends nothing keeps no deficit. -/
def Drr.pass (d : Drr) (empty : Bool) : Drr :=
  let n := (d.turn + 1) % 4
  let ds := if empty then modAt d.deficits d.turn fun _ => 0 else d.deficits
  { turn := n, deficits := modAt ds n fun x => x + drrQuantum n }

/-- A port sends what it may: classes 0 and 1 first, then the others in deficit round robin. `idle` turns passed without a frame; `fuel`
bounds the frames and turns (R277). -/
def State.depart (p : Nat) : Nat → Nat → State → State
  | 0, _, s => s
  | fuel + 1, idle, s =>
    match (s.head p 0).orElse fun _ => s.head p 1 with
    | some q => State.depart p fuel 0 (s.leave p q)
    | none =>
      let d := s.drr p
      match s.head p (2 + d.turn) with
      | some q =>
        if q.size ≤ d.deficits.getD d.turn 0 then
          State.depart p fuel 0 ((s.leave p q).setDrr p { d with deficits := modAt d.deficits d.turn fun x => x - q.size })
        else State.depart p fuel (idle + 1) (s.setDrr p (d.pass false))
      | none => if 4 ≤ idle then s else State.depart p fuel (idle + 1) (s.setDrr p (d.pass true))

/-- Frames leave on a port; when none waits for it nothing changes. -/
def State.departAll (s : State) (p : Nat) : State :=
  if s.tx.waiting.any fun q => s.portOf q = some p then State.depart p (6 * (s.tx.waiting.length + 1)) 0 s else s

/-- A link frame arrives (R276); what waits for the port may then leave (R277; log 49). -/
def State.linkFrame (s : State) (p : Nat) (h : BitVec 128) (crcOk : Bool) : State :=
  if !(s.port p).inService then s else
  let exp := (s.port p).rxSeq.toNat
  let d := (lSeq h + 65536 - exp) % 65536
  let nak := Output.link p 1 [(exp + 65535) % 65536]
  if !frameOk h crcOk then s.emit nak
  else
    let s1 := s.linkBack p h
    if d = 0 then (s1.modPort p fun x => { x with rxSeq := x.rxSeq + 1 }).departAll p
    else if 32768 ≤ d then s1.departAll p
    else if d < 1024 then s1.emit nak
    else s1.resetLink p

def execPortTrainingDone (t port lane : Nat) (s : State) : Host.Outcome State Fault Refusal :=
  .next ((s.tick t).modLane port lane fun l => { l with trained := true })

/-- FEC lock on a trained lane: the port says hello, or the lane rejoins by LANE_MAP (R273, R274). -/
def State.fecLock (s : State) (p l : Nat) : State :=
  if !((s.port p).lanes.getD l {}).trained then s else
  let s1 := s.modLane p l fun x => { x with fec := true }
  if (s1.port p).inService then s1.emit (.link p 0 [laneMask (s1.port p) ||| 2 ^ l]) else s1.sendHello p

def execFecLock (t port lane : Nat) (s : State) : Host.Outcome State Fault Refusal :=
  .next ((s.tick t).fecLock port lane)

/-- LINK_HELLO: the neighbour, the lanes both ends have, the credits; the port is in service (R273). -/
def State.linkHello (s : State) (p n : Nat) (lanes : BitVec 4) (credits : List Nat) : State :=
  let x := s.port p
  if !x.lanes.any (·.fec) then s else
  let ls := x.lanes.zipIdx.map fun l => { l.1 with inService := l.1.fec && lanes.getLsbD l.2 }
  s.modPort p fun x => settle { x with
    lanes := ls, inService := true, neighbour := n, txSeq := 0, rxSeq := 0, replay := []
    credits := (List.range 6).map fun c => credits.getD c 0 }

def execLinkHello (t port neighbour : Nat) (lanes : BitVec 4) (credits : List Nat) (s : State) :
    Host.Outcome State Fault Refusal :=
  .next ((s.tick t).linkHello port neighbour lanes credits)

def execLinkFrameReceive (t port : Nat) (hdr : BitVec 128) (crcOk : Bool) (s : State) : Host.Outcome State Fault Refusal :=
  .next ((s.tick t).linkFrame port hdr crcOk)

def execLinkReplayTimeout (t port lane : Nat) (s : State) : Host.Outcome State Fault Refusal :=
  let s1 := s.tick t
  .next (if (s1.port port).replay.isEmpty then s1 else s1.replay port lane)

/-- A lane fails: it is removed, and the fault is survived with no lost message (R274, R389). -/
def State.laneFault (s : State) (lane : Nat) : State :=
  if !((s.port (lane / 4)).lanes.getD (lane % 4) {}).inService then s
  else ((s.removeLane (lane / 4) (lane % 4)).recovery s.pkgLevel 7 lane).record 0x0B s.pkgLevel 3 7 lane 0 .recovered 0

def execLaneFault (t lane : Nat) (s : State) : Host.Outcome State Fault Refusal := .next ((s.tick t).laneFault lane)

/-- LANE_MAP from the neighbour: a lane leaves or joins the port here as there (R274). -/
def State.laneMap (s : State) (p l : Nat) (join : Bool) : State :=
  let x := (s.port p).lanes.getD l {}
  if join then
    if x.fec && !x.inService && (s.port p).inService then
      let s1 := s.modLane p l fun y => { y with inService := true }
      s1.emit (.link p 0 [laneMask (s1.port p)])
    else s
  else if x.inService then s.removeLane p l else s

def execLaneMap (t port lane : Nat) (join : Bool) (s : State) : Host.Outcome State Fault Refusal :=
  .next ((s.tick t).laneMap port lane join)

/-! ### Time (R285) -/

/-- The time base is held from the first LOCKED on. -/
def State.lock (s : State) : State :=
  ({ s with mod := { s.mod with baseHeld := true } } : State).setTime .locked

/-- A valid Sync: offset beyond ±1 ms frees the timer, 16 in a row within ±250 ns lock it. -/
def State.ptpSync (s : State) (port : Nat) (offset : Int) (valid : Bool) : State :=
  if !valid || !(s.port port).inService then s else
  let near := decide (offset.natAbs ≤ 250)
  let good := if near then s.ptp.good + 1 else 0
  let s1 : State := { s with ptp := { s.ptp with offset := offset, good := min good 16 } }
  if 1000000 < offset.natAbs then s1.setTime .freeRun
  else if 16 ≤ good then s1.lock
  else s1

def execPtpSync (t port : Nat) (offset : Int) (valid : Bool) (s : State) : Host.Outcome State Fault Refusal :=
  .next ((s.tick t).ptpSync port offset valid)

/-- No valid Sync since LOCKED: holdover begins. -/
def execHoldoverEntry (t : Nat) (s : State) : Host.Outcome State Fault Refusal :=
  let s1 := s.tick t
  .next (if s1.ptp.state = .locked then
    ({ s1 with ptp := { s1.ptp with holdoverAt := s1.now, good := 0 } } : State).setTime .holdover else s1)

/-- Holdover longer than 10 s. -/
def execHoldoverExpiry (t : Nat) (s : State) : Host.Outcome State Fault Refusal :=
  let s1 := s.tick t
  .next (if s1.ptp.state = .holdover && s1.ptp.holdoverAt + 10000000000 ≤ s1.now then s1.setTime .freeRun else s1)

/-- The module's own Sync leaves on every in-service port. -/
def execSyncInterval (t : Nat) (s : State) : Host.Outcome State Fault Refusal :=
  let s1 := s.tick t
  .next ((List.range 16).foldl (fun s p => if (s.port p).inService then (s.emit (.link p 4 [s.now])).sendFrame p else s) s1)

end Sys2Proof.Machine
end

