-- ==== Sys2Proof/Machine/Pool.lean ====
section
/-!
DEFINITION. Gathers (R245..R253), serving of rows (R252), replicas of hot rows (R254, R255).
-/
namespace Sys2Proof.Machine

/-! ### TABLE_GATHER (R245, R246, R251) -/

def tgTable (w : BitVec 512) : Nat := bits w.toNat 511 480
def tgVersion (w : BitVec 512) : Nat := bits w.toNat 479 464
def tgSel (w : BitVec 512) : Nat := bits w.toNat 463 456
def tgPool (w : BitVec 512) : Nat := bits w.toNat 455 448
def tgOut (w : BitVec 512) : Nat := bits w.toNat 447 440
def tgBags (w : BitVec 512) : Nat := bits w.toNat 431 416
def tgPositions (w : BitVec 512) : Nat := bits w.toNat 415 384

/-- Fields of the gather block in their ranges. -/
def gatherFields (w : BitVec 512) : Bool :=
  tgSel w ≤ 1 && (tgSel w = 1 || tgVersion w = 0) && tgPool w ≤ 2 && tgOut w ≤ 1 && bits w.toNat 439 432 = 0
    && 1 ≤ tgBags w && tgBags w ≤ 4096 && 1 ≤ tgPositions w && tgPositions w ≤ 1048576 && bits w.toNat 383 0 = 0

/-- Bytes of one output vector. -/
def vectorBytes (d : TableDesc) (out : Nat) : Nat := roundUp (d.dim * (if out = 0 then 4 else 2)) 64

/-- The descriptor a gather binds: the current version, or the pinned live one (R245). -/
def State.gatherDesc (s : State) (w : BitVec 512) : Option TableDesc :=
  if tgSel w = 0 then s.table (tgTable w) else s.tableVer (tgTable w) (tgVersion w)

/-- Checks 7 to 9 of TABLE_GATHER. -/
def State.checkGather (s : State) (r : Request) (g : GatherPayload) : Option Status :=
  let w := g.blk
  firstOf [
    (dPayLen r.desc < 64, .lengthExceeds),
    (!gatherFields w, .fieldReserved),
    ((s.table (tgTable w)).isNone, .unknownObject),
    ((s.gatherDesc w).isNone, .versionStale),
    (dPayLen r.desc < 64 + 4 * tgBags w + (if tgPool w = 2 then 12 else 8) * tgPositions w, .lengthExceeds),
    ((match s.gatherDesc w with
      | some d => dResLen r.desc < 64 + tgBags w * vectorBytes d (tgOut w)
      | none => false), .lengthExceeds),
    (g.lens.any fun n => 16384 < n.toNat, .fieldReserved),
    ((g.lens.map (·.toNat)).sum ≠ tgPositions w, .fieldReserved),
    (r.lc && s.entry (perFn 0x2100 r.fn) = 0, .accessDenied)]

/-- Changes the gather of a request, or those of its feature tables in stage 9. -/
def State.modGather (s : State) (f tag : Nat) (g : GatherWork → GatherWork) : State :=
  s.modReq f tag fun r => match r.gather with
    | some p => { r with gather := some (p.1, g p.2) }
    | none => { r with work := { r.work with feats := r.work.feats.map g } }

/-- The first row requests of an accepted gather fix T, the version and the map epoch (R250). -/
def State.startGather (s : State) (f tag : Nat) : State :=
  match s.req f tag with
  | none => s
  | some r =>
    match r.gather, r.round with
    | some (p, _), none =>
      (match s.gatherDesc p.blk with
        | none => s
        | some d =>
          let x := s.readRows r d (p.rows.map (·.toNat))
          x.1.modReq f tag fun r => { r with gather := some (p, x.2), work := { r.work with since := s.now } })
    | _, _ => s

/-- A gather as LC charges POSITIONS × ROW_BYTES (R251). -/
def State.gatherAdm (s : State) (r : Request) (g : GatherPayload) (d : TableDesc) : Adm :=
  let w : GatherWork := { table := d.tableId, version := d.version, time := 0, epoch := 0 }
  let x := ({ s := s, r := { r with gather := some (g, w) }, t := s.now } : Adm).spread .tblBytes (tgPositions g.blk * rowBytes d)
  (if r.lc then x.1.wait ((x.2 + 1) * 50000 + s.entry 0x500004) else x.1).asPlain s

/-- The admission of a gather ends; an accepted one asks for its rows. -/
def State.admitGather (s : State) (r : Request) (g : GatherPayload) : State :=
  match s.gatherDesc g.blk with
  | none => s
  | some d => (s.gatherAdm r g d).closeThen s fun s => s.startGather r.fn r.tag

def execTableGather (t : Nat) (x : Fetched) (g : GatherPayload) (s : State) : Host.Outcome State Fault Refusal :=
  .next (withFetch 0x10 x false (s.tick t) fun r s => s.checked r (s.checkGather r g) (s.admitGather r g))

/-! ### Serving (R252) -/

/-- Takes bytes of the serve allotment of this base step; false when it is exhausted. -/
def State.takeServe (s : State) (n : Nat) : State × Bool :=
  let step := stepOf s.now
  let used := if s.pool.servedStep = step then s.pool.served else 0
  if used + n ≤ s.entry 0x500003 then
    ({ s with pool := { s.pool with servedStep := step, served := used + n } }, true)
  else (s, false)

/-- The replica list of a row homed here. -/
def State.listOf (s : State) (table row : Nat) : Option ReplicaList :=
  s.pool.lists.find? fun l => l.mine && l.table = table && l.row = row

/-- ROW_ANS to a requester: the value with the replica list and its expiry, 64 slots ahead (R255); or a refusal. -/
def State.sendRow (s : State) (id : Nat) (b : RowReqBody) (v : Option RowVal) : State :=
  let row := v.bind fun v => (s.tableVer b.table b.version).map fun d => (d, v)
  let holders := if v.isSome then (s.listOf b.table b.row).elim [] (·.holders) else []
  s.emit (.fabric id 0x31 [b.table, b.row, b.key] (rowAnsWire b.table b.row b.key row (s.now + 64000000) holders))

/-- A version no longer current stays as long as reads of it may still be served (R252, R266). -/
def State.keepVersion (s : State) (b : RowReqBody) : State :=
  let keep (x : PoolTable) : PoolTable :=
    if x.desc.tableId = b.table && x.desc.version = b.version && !x.current then { x with until_ := max x.until_ (b.time + 100000) } else x
  if s.pool.tables.all (·.current) then s else { s with pool := { s.pool with tables := s.pool.tables.map keep } }

/-- A row request at a home or a replica (R252): it is served as it arrives, so none waits for a later one of lower T (log 188). -/
def State.serveRow (s : State) (id : Nat) (b : RowReqBody) : State :=
  match s.tableVer b.table b.version with
  | none => s.sendRow id b none
  | some d =>
    if b.time + 100000 < s.now then s.sendRow id b none
    else match s.heldAt b.table b.version b.row b.time with
      | none => s.sendRow id b none
      | some v =>
        match s.takeServe (rowBytes d) with
        | (s1, true) => ((s1.countRead b.table b.row id).keepVersion b).sendRow id b (some v)
        | (s1, false) => (s1.count 0x501006 1).sendRow id b none

def execRowReq (t : Nat) (hdr : BitVec 256) (b : RowReqBody) (s : State) : Host.Outcome State Fault Refusal :=
  .next ((s.tick t).receive 0x30 4 hdr fun x s => s.serveRow x.ident b)

/-! ### Answers and the end of a gather (R247..R249, R252) -/

/-- An answer teaches the replica list (R255). -/
def State.learn (s : State) (b : RowAnsBody) : State :=
  if b.replicas.isEmpty then s else
  { s with pool := { s.pool with lists := (s.pool.lists.filter fun l => l.mine || l.table ≠ b.table || l.row ≠ b.row)
      ++ [{ table := b.table, row := b.row, holders := b.replicas, expiry := b.expiry, mine := false }] } }

/-- A gather takes an answer for a row that it still awaits. -/
def takeRow (b : RowAnsBody) (ok : Bool) (g : GatherWork) : GatherWork :=
  if g.table = b.table && g.await.contains b.row then
    let g1 := { g with await := g.await.filter (· ≠ b.row) }
    match b.value, ok with
    | some v, true => { g1 with have_ := g1.have_ ++ [(b.row, v)] }
    | _, _ => { g1 with unserved := g1.unserved ++ [b.row] }
  else g

/-- A row answer, or one that the pair peer forwards for its gather. -/
def State.rowAnswer (s0 : State) (b : RowAnsBody) (fwd : Bool) : State :=
  let f := b.key / 2 ^ 64 + (if fwd then 2000 else 0)
  let tag := b.key % 2 ^ 64
  let row := b.value.bind fun v => (s0.table b.table).map fun d => (d, v)
  let s := match s0.req f tag with
    | some r => s0.forwardInput r 0x31 [b.table, b.row, b.key] (rowAnsWire b.table b.row b.key row b.expiry b.replicas)
    | none => s0
  let ok (g : GatherWork) : Bool := match s.tableVer g.table g.version, b.value with
    | some d, some v => rowOk d v
    | _, _ => false
  (s.learn b).modGather f tag fun g => takeRow b (ok g) g

def execRowAns (t : Nat) (hdr : BitVec 256) (b : RowAnsBody) (s : State) : Host.Outcome State Fault Refusal :=
  .next ((s.tick t).receive 0x31 4 hdr fun _ s => s.rowAnswer b (isForward hdr))

/-- No answer within G_WAIT: unserved, never retried (R252). -/
def State.rowLate (s : State) (f tag row : Nat) : State :=
  match s.req f tag with
  | none => s
  | some r =>
    if r.work.since + s.entry 0x500004 ≤ s.now && (r.gather.isSome || r.work.stage = 9) then
      s.modGather f tag fun g => if g.await.contains row then
        { g with await := g.await.filter (· ≠ row), unserved := g.unserved ++ [row] } else g
    else s

def execGatherWaitExpiry (t f tag row : Nat) (s : State) : Host.Outcome State Fault Refusal :=
  .next ((s.tick t).rowLate f tag row)

/-- A list in runs of 256. -/
def runs256 {α : Type} : Nat → List α → List (List α)
  | 0, _ => []
  | n + 1, l => if l.isEmpty then [] else l.take 256 :: runs256 n (l.drop 256)

/-- Sum of the runs of one element of a bag (R248). -/
def bagSum (ps : List (F32 × F32)) : F32 :=
  match (runs256 ps.length ps).map poolRun with
  | [] => 0
  | p :: rest => rest.foldl fAdd p

/-- One element of a bag's vector (R248). -/
def bagElem (pool : Nat) (ps : List (F32 × F32)) : F32 :=
  if ps.isEmpty then 0 else if pool = 1 then fMul (bagSum ps) (fRecip (fOfNat ps.length)) else bagSum ps

/-- A bag's output bytes: rows with weights (R248, R249). -/
def bagBytes (d : TableDesc) (pool out : Nat) (ps : List (F32 × RowVal)) : List Byte :=
  let xs := (List.range d.dim).map fun i => bagElem pool (ps.map fun p => (p.1, rowElem d p.2 i))
  let bs := xs.flatMap fun x => if out = 0 then leBytes 4 x.toNat else leBytes 2 (encodeF bf16 (f32 x))
  bs ++ List.replicate (vectorBytes d out - bs.length) 0

/-- Cuts a list into pieces of given lengths. -/
def cutBags {α : Type} : List Nat → List α → List (List α)
  | [], _ => []
  | n :: ns, l => l.take n :: cutBags ns (l.drop n)

/-- Counts of a gather: missing, invalid, unserved, empty bags (R247, R248). -/
def gatherCounts (d : TableDesc) (p : GatherPayload) (g : GatherWork) : Nat × Nat × Nat × Nat :=
  let rows := p.rows.map (·.toNat)
  ((rows.filter (· = 2 ^ 64 - 1)).length,
   (rows.filter fun r => d.rowCount ≤ r && r ≠ 2 ^ 64 - 1).length,
   (rows.filter fun r => r < d.rowCount && g.unserved.contains r).length,
   (p.lens.filter (· = 0#32)).length)

/-- The result of a gather (R249). -/
def gatherBytes (tag : Nat) (d : TableDesc) (p : GatherPayload) (g : GatherWork) : List Byte :=
  let c := gatherCounts d p g
  let st := if c.2.2.1 = 0 then Status.done else .partDone
  let head := tag % 2 ^ 64 * 2 ^ 448 + g.time % 2 ^ 64 * 2 ^ 384 + g.epoch % 2 ^ 32 * 2 ^ 352 + c.1 % 2 ^ 32 * 2 ^ 320
    + c.2.1 % 2 ^ 32 * 2 ^ 288 + c.2.2.1 % 2 ^ 32 * 2 ^ 256 + c.2.2.2 % 2 ^ 16 * 2 ^ 240 + g.version % 2 ^ 16 * 2 ^ 224
    + statusCode st * 2 ^ 216
  let rows := (p.rows.map (·.toNat)).zipIdx.map fun x =>
    ((if tgPool p.blk = 2 then p.weights.getD x.2 0 else 0x3F800000#32), rowFor d g.have_ x.1)
  leBytes 64 head ++ (cutBags (p.lens.map (·.toNat)) rows).flatMap (bagBytes d (tgPool p.blk) (tgOut p.blk))

/-- Old versions stay while a gather is bound to them, here or, as far as reads tell, elsewhere (R252, R266). -/
def State.prunePool (s : State) : State :=
  let bound (id v : Nat) (g : GatherWork) : Bool := g.table = id && g.version = v
  let used (id v : Nat) : Bool := s.reqs.any fun r =>
    (r.gather.any fun g => bound id v g.2) || (r.work.stage = 9 && r.work.feats.any (bound id v))
  let tables := s.pool.tables.filter fun x =>
    s.pool.descs.contains x.desc || s.now ≤ x.until_ || used x.desc.tableId x.desc.version
  { s with pool := { s.pool with
      tables := tables
      replicas := s.pool.replicas.filter fun r => tables.any fun x => x.desc.tableId = r.table && x.desc.version = r.version } }

/-- GATHER_DONE: every row in hand or recorded unserved (R248, R249). -/
def State.gatherDone (s : State) (f tag : Nat) : State :=
  match s.req f tag with
  | none => s
  | some r =>
    match r.gather, r.round with
    | some (p, g), none =>
      (match s.tableVer g.table g.version with
        | none => s
        | some d =>
          if !g.await.isEmpty then s else
          let c := gatherCounts d p g
          let out := gatherBytes r.tag d p g
          let s1 := ((((s.count 0x501001 p.rows.length).count 0x501002 c.1).count 0x501003 c.2.1).count 0x501004 c.2.2.1).count
            0x501005 c.2.2.2
          ((s1.writeResult r out).finishResult r (if c.2.2.1 = 0 then .done else .partDone) out.length).prunePool)
    | _, _ => s

def execGatherDone (t f tag : Nat) (s : State) : Host.Outcome State Fault Refusal := .next ((s.tick t).gatherDone f tag)

/-! ### Hot rows (R254, R255) -/

/-- Sends a frozen row to its new home (R261). -/
def State.sendCopy (s : State) (d : TableDesc) (r : PoolRow) (id : Nat) : State :=
  s.emit (.fabric id 0x34 [d.tableId, d.version, r.row, 1] (replicaWire d 1 r.row 0 (some r.value) r.prev.head?))

/-- Sends a home row to a module (R254, R259). -/
def State.sendReplica (s : State) (d : TableDesc) (r : PoolRow) (id : Nat) : State :=
  s.emit (.fabric id 0x34 [d.tableId, d.version, r.row] (replicaWire d 0 r.row 0 (some r.value) r.prev.head?))

/-- Announces the removal of a replica, with its removal time (R255, R261); a candidate declines so at once (R254). -/
def State.sendRemoval (s : State) (id table row : Nat) (at_ : Time) : State :=
  match s.table table with
  | some d => s.emit (.fabric id 0x34 [table, d.version, row, at_] (replicaWire d 2 row at_ none none))
  | none => s

/-- Sets the replica list of a row homed here. -/
def State.setList (s : State) (l : ReplicaList) : State :=
  { s with pool := { s.pool with lists := (s.pool.lists.filter fun x => !(x.mine && x.table = l.table && x.row = l.row)) ++
      (if l.holders.isEmpty && l.leaving.isEmpty then [] else [l]) } }

/-- Requesters of a row in this slot, most reads first, ties by the lower identifier (R254). -/
def readersOf (reads : List (Nat × Nat × Nat × Nat)) (table row : Nat) : List (Nat × Nat) :=
  sortBy (fun a b => b.2 < a.2 || (a.2 = b.2 && a.1 ≤ b.1))
    ((reads.filter fun x => x.1 = table && x.2.1 = row).map fun x => (x.2.2.1, x.2.2.2))

/-- Reads of a row in this slot. -/
def readsOf (reads : List (Nat × Nat × Nat × Nat)) (table row : Nat) : Nat :=
  ((reads.filter fun x => x.1 = table && x.2.1 = row).map fun x => x.2.2.2).sum

/-- A hot row gets replicas, up to the limit (R254). -/
def State.heat (s : State) (table row : Nat) : State :=
  match s.table table with
  | none => s
  | some d =>
    match s.poolRow table d.version row with
    | none => s
    | some p =>
      if p.lost then s else
      let l := (s.listOf table row).getD { table := table, row := row, holders := [], expiry := 0, mine := true }
      let cands := ((readersOf s.pool.reads table row).map (·.1)).filter fun id =>
        !s.isSelf id && s.partner id && !l.holders.contains id && !(l.leaving.any fun x => x.1 = id)
      let new := cands.take (s.entry 0x500006 - l.holders.length)
      (new.foldl (fun s id => s.sendReplica d p id) s).setList
        { l with holders := l.holders ++ new, asked := new, cands := cands.drop new.length, cold := 0 }

/-- A row that stays cold for 64 slots loses the replica with the lowest identifier, 64 ms after the announcement
(R255). -/
def State.chill (s : State) (l : ReplicaList) : State :=
  let cold := l.cold + 1
  if cold < 64 then s.setList { l with cold := cold }
  else
    match l.holders.foldl (fun (m : Option Nat) h => some (match m with
      | some x => min x h
      | none => h)) none with
    | none => s.setList { l with cold := 0 }
    | some id =>
      let at_ := s.now + 64000000
      ((s.sendRemoval id l.table l.row at_).count 0x50100D 1).setList
        { l with holders := l.holders.filter (· ≠ id), leaving := l.leaving ++ [(id, at_)], cold := 0 }

/-- The replicas asked for in the slot before that were not declined are created (R254). -/
def State.settleAsked (s : State) (l : ReplicaList) : State :=
  (s.count 0x50100C l.asked.length).setList { l with asked := [], cands := [] }

/-- The end of a 1 ms slot (R254, R255). -/
def State.hotSlot (s0 : State) : State :=
  let s := (s0.pool.lists.filter (·.mine)).foldl State.settleAsked s0
  let keys := ((s.pool.reads.map fun x => (x.1, x.2.1)).eraseDups).filter fun k => s.homeHere k.1 k.2
  let hot := keys.filter fun k => s.entry 0x500005 < readsOf s.pool.reads k.1 k.2
  let s1 := hot.foldl (fun s k => s.heat k.1 k.2) s
  let mine := s1.pool.lists.filter (·.mine)
  let s2 := mine.foldl (fun s l =>
    let l1 := { l with leaving := l.leaving.filter fun p => s.now < p.2 }
    if 4 * readsOf s.pool.reads l.table l.row < s.entry 0x500005 then s.chill l1 else s.setList { l1 with cold := 0 }) s1
  { s2 with pool := { s2.pool with reads := [] } }

def execHotSlotEnd (t : Nat) (s : State) : Host.Outcome State Fault Refusal := .next (s.tick t).hotSlot

/-! ### Lend space (R242) -/

/-- The lend area in bytes, of the dies in service. -/
def State.lendBytes (s : State) : Nat := s.areaBytes 2

/-- Bytes of replica space in use. -/
def State.replicaUsed (s : State) : Nat :=
  ((s.pool.replicas.filter fun r => !r.copy_).map fun r => (s.tableVer r.table r.version).elim 0 rowBytes).sum

/-- Lend-area bytes in use: rows, values before them, default rows, replica space, rows copied for a migration, staged parts. -/
def State.lendUsed (s : State) : Nat :=
  (s.pool.tables.map fun x => rowBytes x.desc * (x.rows.map fun r => 1 + r.prev.length).sum).sum
    + (s.pool.tables.map fun x => rowBytes x.desc).sum + s.inForce 0x500002 * 1000000000
    + ((s.pool.replicas.filter (·.copy_)).map fun r => (s.tableVer r.table r.version).elim 0 rowBytes).sum
    + (s.pool.staged.map fun p => p.table.elim 0 fun x => rowBytes x.desc * x.rows.length).sum

/-- Room for one more row: a replica in the replica space, a row that a migration brings in the lend area (R254, R262). -/
def State.rowRoom (s : State) (d : TableDesc) (copy : Bool) : Bool :=
  if copy then s.lendUsed + rowBytes d ≤ s.lendBytes else s.replicaUsed + rowBytes d ≤ s.inForce 0x500002 * 1000000000

/-- The value that a home sends is the copy's, with the value before it (R254, R259). Without room for it a replica declines
(log 139). -/
def State.replicaRow (s : State) (src : Nat) (b : ReplicaBody) : State :=
  match s.tableVer b.table b.version with
  | none => s
  | some d =>
    if !rowOk d b.value then s else
    let hist (old : List (Time × RowVal)) : List (Time × RowVal) := match b.prev with
      | some p => if old.any (fun q => q.1 = p.1) then old else p :: old
      | none => old
    let put (x : PoolRow) : PoolRow := if x.row = b.row then { x with value := b.value, prev := hist x.prev } else x
    if (s.poolRow b.table b.version b.row).isSome then
      { s with pool := { s.pool with tables := s.pool.tables.map fun x =>
        if x.desc.tableId = b.table && x.desc.version = b.version then { x with rows := x.rows.map put } else x } }
    else if s.pool.replicas.any fun r => r.table = b.table && r.version = b.version && r.row = b.row then
      { s with pool := { s.pool with replicas := s.pool.replicas.map fun r =>
        if r.table = b.table && r.version = b.version && r.row = b.row then
          { r with value := b.value, prev := hist r.prev, copy_ := r.copy_ || b.copy } else r } }
    else if s.rowRoom d b.copy then
      { s with pool := { s.pool with replicas := s.pool.replicas ++ [{
        table := b.table, version := b.version, row := b.row, value := b.value, prev := hist []
        from_ := (stepOf s.now + 1) * 50000, copy_ := b.copy }] } }
    else if b.copy then s
    else s.sendRemoval src b.table b.row 0

/-- A module that was asked declines: the next candidate is asked (R254). -/
def State.declined (s : State) (src : Nat) (b : ReplicaBody) : State :=
  match s.listOf b.table b.row with
  | none => s
  | some l =>
    if !l.asked.contains src then s else
    let l1 := { l with holders := l.holders.filter (· ≠ src), asked := l.asked.filter (· ≠ src) }
    match l.cands, s.table b.table with
    | id :: rest, some d =>
      (match s.poolRow b.table d.version b.row with
        | some p => (s.sendReplica d p id).setList { l1 with holders := l1.holders ++ [id], asked := l1.asked ++ [id], cands := rest }
        | none => s.setList l1)
    | _, _ => s.setList l1

/-- REPLICA from the row's home: a value, or an announced removal (R254, R255); from a module that was asked: a decline. -/
def State.replicaMsg (s : State) (src : Nat) (b : ReplicaBody) : State :=
  if src = s.homeOf b.table b.row || src = s.entry 0xA10001 then
    match b.remove with
    | some x => { s with pool := { s.pool with replicas := s.pool.replicas.map fun r =>
        if r.table = b.table && r.row = b.row then { r with removeAt := some x } else r } }
    | none => s.replicaRow src b
  else if b.remove.isSome && s.homeHere b.table b.row then s.declined src b
  else s

def execReplica (t : Nat) (hdr : BitVec 256) (b : ReplicaBody) (s : State) : Host.Outcome State Fault Refusal :=
  .next ((s.tick t).receive 0x34 4 hdr fun x s => s.replicaMsg x.ident b)

/-- The removal time of a replica: its row is freed (R255). -/
def State.removeReplica (s : State) (table row : Nat) : State :=
  let due (r : ReplicaRow) : Bool := r.table = table && r.row = row && (r.removeAt.any fun x => decide (x ≤ s.now))
  { s with pool := { s.pool with replicas := s.pool.replicas.filter fun r => !due r } }

def execReplicaRemovalTime (t table row : Nat) (s : State) : Host.Outcome State Fault Refusal :=
  .next ((s.tick t).removeReplica table row)

end Sys2Proof.Machine
end

