-- ==== Sys2Proof/Machine/Windows.lean ====
section
/-!
DEFINITION. Updates of trainable rows in pool windows (R256..R260), forwarded and delayed deltas (R261, R268), checkpoint,
journal and rebuild of rows (R268).
-/
namespace Sys2Proof.Machine

/-! ### TABLE_UPDATE (R256, R257, R260) -/

def tuTable (w : BitVec 128) : Nat := bits w.toNat 127 96
def tuVersion (w : BitVec 128) : Nat := bits w.toNat 95 80
def tuEntries (w : BitVec 128) : Nat := bits w.toNat 63 32

/-- Checks 7 to 9 of TABLE_UPDATE. -/
def State.checkUpdate (s : State) (r : Request) (u : UpdatePayload) : Option Status :=
  let w := u.blk
  firstOf [
    (dPayLen r.desc < 16, .lengthExceeds),
    (tuEntries w < 1 || 65536 < tuEntries w || bits w.toNat 79 64 ≠ 0 || bits w.toNat 31 0 ≠ 0, .fieldReserved),
    ((s.table (tuTable w)).isNone, .unknownObject),
    ((s.table (tuTable w)).any fun d => d.version ≠ tuVersion w, .versionStale),
    ((s.table (tuTable w)).any fun d => !d.trainable, .stateConflict),
    ((s.table (tuTable w)).any fun d => dPayLen r.desc < 16 + tuEntries w * (8 + 4 * d.dim), .lengthExceeds),
    (r.lc && s.entry (perFn 0x2100 r.fn) = 0, .accessDenied)]

/-- Element by element sum of two deltas (R257, R258). -/
def addRows (a b : List F32) : List F32 := (a.zip b).map fun p => fAdd p.1 p.2

/-- Combines entries by row, in payload order (R257). -/
def combine : List (Nat × List F32) → List (Nat × List F32) → List (Nat × List F32)
  | acc, [] => acc
  | acc, (row, d) :: rest =>
    combine (match getKey acc row with
      | some x => setKey acc row (addRows x d)
      | none => acc ++ [(row, d)]) rest

/-- Adds a combined delta to what this source sends for a row and window (R257). -/
def State.addOutgoing (table w : Nat) (s : State) (p : Nat × List F32) : State :=
  let key := deltaKey table p.1 w
  let add (q : QueuedDelta) : QueuedDelta := if q.key = key then { q with deltas := addRows q.deltas p.2 } else q
  let new : QueuedDelta := { window := w, table := table, row := p.1, source := s.fab.ident, seq := 0, key := key, deltas := p.2 }
  let out := if s.pool.outgoing.any (fun q => q.key = key) then s.pool.outgoing.map add else s.pool.outgoing ++ [new]
  { s with pool := { s.pool with outgoing := out } }

/-- The deltas of an accepted update enter the present window (R256, R257); a partner sends none (R301). -/
def State.startUpdate (s : State) (f tag : Nat) : State :=
  match s.req f tag with
  | none => s
  | some r =>
    match r.update, r.round, r.mirror with
    | some (p, _), none, false =>
      (match s.table (tuTable p.blk) with
        | none => s
        | some d =>
          let w := stepOf s.now
          let es := (p.entries.take (tuEntries p.blk)).map fun e => (e.1.toNat, e.2)
          let good := es.filter fun e => e.1 < d.rowCount
          let rows := combine [] good
          let u : UpdateWork := { window := w, homes := rows.map fun x => deltaKey d.tableId x.1 w, skipped := es.length - good.length }
          let s1 := (s.modReq f tag fun r => { r with update := some (p, u) }).count 0x501007 (es.length - good.length)
          (rows.foldl (State.addOutgoing d.tableId w) s1).endUpdate (f, tag))
    | _, _, _ => s

/-- As LC, its bytes are charged in equal shares up to V(w) (R260; log 56). -/
def State.updateAdm (s : State) (r : Request) (u : UpdatePayload) : Adm :=
  let w := stepOf s.now
  let a : Adm := { s := s, r := { r with update := some (u, { window := w }) }, t := s.now }
  let b := a.spanned .tblBytes (dPayLen r.desc) ((w + 3) * 50000)
  (if r.lc then { b with t := (w + 3) * 50000 + s.entry 0x500004 } else b).asPlain s

/-- The admission of an update ends; the deltas of an accepted one enter the window. -/
def State.admitUpdate (s : State) (r : Request) (u : UpdatePayload) : State :=
  (s.updateAdm r u).closeThen s fun s => s.startUpdate r.fn r.tag

def execTableUpdate (t : Nat) (x : Fetched) (u : UpdatePayload) (s : State) : Host.Outcome State Fault Refusal :=
  .next (withFetch 0x11 x false (s.tick t) fun r s => s.checked r (s.checkUpdate r u) (s.admitUpdate r u))

/-! ### Deltas at a home (R258, R261) -/

/-- Answers a delta: to this module's own requests, or to its source (R260). -/
def State.ackDelta (s : State) (src key : Nat) (applied stale : Bool) : State :=
  if s.isSelf src then (s.answerDelta key applied stale).count 0x501009 (!applied && !stale).toNat
  else s.emit (.fabric src 0x33 [key] (deltaAnsWire key applied stale))

/-- Refuses a delta; a home counts it (R258). -/
def State.refuseDelta (s : State) (src key : Nat) : State :=
  if s.isSelf src then s.ackDelta src key false false else (s.ackDelta src key false false).count 0x501009 1

/-- Distinct rows that the home buffers for a window (R258). -/
def State.bufferedRows (s : State) (w : Nat) : List (Nat × Nat) :=
  ((s.pool.queue.filter fun q => q.window = w).map fun q => (q.table, q.row)).eraseDups

/-- This module's migration covers a row. -/
def State.migrating (s : State) (table row : Nat) (incoming : Bool) : Bool :=
  s.pool.migration.any fun m => m.incoming = incoming && m.table = table && m.lo ≤ row && row ≤ m.hi

/-- The delta reaches a module that takes it: the home, its half of the pair, the old home of a migration under way, or a new home
that the old one forwards to (R258, R261, R267). -/
def State.takesDelta (s : State) (src table row : Nat) : Bool :=
  s.homeHere table row || s.migrating table row false || src = s.homeOf table row

/-- A delta that the primary of this module's pair mirrors to it (R267). -/
def State.mirrored (s : State) (src table row : Nat) : Bool := s.pairHalf table row && src = s.entry 0xA10001

/-- Key of a delta that another module than its source sends. -/
def sentKey (source key : Nat) : Nat := (source + 1) * 2 ^ 192 + key % 2 ^ 192

/-- Window that a key names. -/
def keyWindow (k : Nat) : Nat := k % 2 ^ 64

/-- Answers a queued delta: to the module that sent it; the half of a pair that does not serve the row answers nothing (R267). -/
def State.ackQueued (applied stale : Bool) (s : State) (q : QueuedDelta) : State :=
  if s.pairHalf q.table q.row then s
  else if applied || stale then s.ackDelta (q.via.getD q.source) q.key applied stale
  else s.refuseDelta (q.via.getD q.source) q.key

/-- DELTA on behalf of its source: its own window, that it takes effect in, and the source. -/
def State.passDelta (s : State) (d : TableDesc) (q : QueuedDelta) (id : Nat) : State :=
  s.emit (.fabric id 0x32 [q.table, d.version, q.row, keyWindow q.key, q.window, q.source]
    (deltaWire q.table d.version q.row (keyWindow q.key) q.window q.source q.deltas))

/-- Forwards a delta to the new home of its row (R261; log 52). -/
def State.forwardDelta (d : TableDesc) (s : State) (q : QueuedDelta) : State :=
  match s.pool.migration with
  | none => s
  | some m =>
    if s.partner m.newHome then
      ({ s with pool := { s.pool with forwarded :=
        s.pool.forwarded ++ [(sentKey q.source q.key, q.via.getD q.source, q.key)] } } : State).passDelta d q m.newHome
    else s.ackQueued false false q

/-- Deltas of this window for the row belong to its new home: the window is W_F or later (R261). -/
def State.frozenFor (s : State) (table row w : Nat) : Bool :=
  s.migrating table row false && s.pool.migration.any fun m => m.freeze ≤ w

/-- Queues a delta, or refuses it where the window's rows are full (R258). The primary of a pair mirrors what it queues to its
half (R267). -/
def State.putDelta (s : State) (d : TableDesc) (q : QueuedDelta) (half : Bool) : State :=
  let rows := s.bufferedRows q.window
  if 65536 ≤ rows.length && !rows.contains (q.table, q.row) && !half then s.ackQueued false false q
  else
    let s1 : State := { s with pool := { s.pool with queue := s.pool.queue ++ [q] } }
    let peer := s.entry 0xA10001
    if s.pair.state = .paired && s.homeHere q.table q.row && (rangeIn s.pool.ranges q.table q.row).any rgPaired then
      s1.passDelta d q peer
    else s1

/-- A delta that this module takes: queued for its window, or for the first open one after that source's own (R258); forwarded at
once where its window is W_F or later (R261). What another module sends on keeps the window it had there. -/
def State.queueDelta (s : State) (src : Nat) (b : DeltaBody) : State :=
  let own := deltaKey b.table b.row b.window
  let half := s.mirrored src b.table b.row
  let key := match b.origin with
    | some o => if half then own else sentKey o own
    | none => own
  match s.table b.table with
  | none => if half then s else s.refuseDelta src key
  | some d =>
    if d.version ≠ b.version then if half then s else (s.count 0x50100A 1).ackDelta src key false true
    else if !d.trainable || d.rowCount ≤ b.row || b.deltas.length ≠ d.dim || !s.takesDelta src b.table b.row then
      if half then s else s.refuseDelta src key
    else
      let late := b.origin.isNone && decide (b.window < s.pool.closedTo) && !s.frozenFor b.table b.row b.window
      let w := if late then s.pool.closedTo else if b.origin.isNone then b.window else b.late.getD b.window
      let q : QueuedDelta := { window := w, table := b.table, row := b.row, source := b.origin.getD src, key := key
                               deltas := b.deltas, seq := if late || w ≠ b.window then 1 + s.pool.queue.length else 0
                               via := if b.origin.isSome && !half then some src else none }
      let s1 := s.count 0x501008 late.toNat
      if s.frozenFor b.table b.row w then State.forwardDelta d s1 q
      else (s1.putDelta d q half).count 0x50100B q.via.isSome.toNat

def execDelta (t : Nat) (hdr : BitVec 256) (b : DeltaBody) (s : State) : Host.Outcome State Fault Refusal :=
  .next ((s.tick t).receive 0x32 4 hdr fun x s => s.queueDelta x.ident b)

/-- One delta of an ended window leaves this source (R257). -/
def State.sendDelta (s : State) (q : QueuedDelta) : State :=
  match s.table q.table with
  | none => s.refuseDelta s.fab.ident q.key
  | some d =>
    let b : DeltaBody := { table := q.table, version := d.version, row := q.row, window := q.window, deltas := q.deltas }
    let home := s.homeOf q.table q.row
    if s.homeHere q.table q.row then s.queueDelta s.fab.ident b
    else if s.partner home then
      s.emit (.fabric home 0x32 [q.table, d.version, q.row, q.window, q.key]
        (deltaWire q.table d.version q.row q.window q.window s.fab.ident q.deltas))
    else s.refuseDelta s.fab.ident q.key

/-- At a boundary the deltas of windows that have ended are sent (R257). -/
def State.sendDeltas (s : State) : State :=
  let w := stepOf s.now
  let due := s.pool.outgoing.filter fun q => q.window < w
  due.foldl State.sendDelta
    { s with pool := { s.pool with outgoing := s.pool.outgoing.filter fun q => w ≤ q.window } }

/-- DELTA_ANS: to the requests that wait here, or on to the sources of a forwarded delta (R260, R261). -/
def State.deltaAnswer (s : State) (key : Nat) (applied stale : Bool) : State :=
  let fw := s.pool.forwarded.filter fun p => p.1 = key
  if fw.isEmpty then s.answerDelta key applied stale
  else
    let s1 : State := { s with pool := { s.pool with forwarded := s.pool.forwarded.filter fun p => p.1 ≠ key } }
    fw.foldl (fun s p => s.ackDelta p.2.1 p.2.2 applied stale) s1

def execDeltaAns (t : Nat) (hdr : BitVec 256) (tag : Nat) (applied stale : Bool) (s : State) : Host.Outcome State Fault Refusal :=
  .next ((s.tick t).receive 0x33 4 hdr fun _ s => s.deltaAnswer tag applied stale)

/-! ### Closing a window (R258, R259) -/

/-- Changes a home row of the current version. -/
def State.modRow (s : State) (d : TableDesc) (row : Nat) (g : PoolRow → PoolRow) : State :=
  let put (r : PoolRow) : PoolRow := if r.row = row then g r else r
  { s with pool := { s.pool with tables := s.pool.tables.map fun x =>
    if x.desc.tableId = d.tableId && x.desc.version = d.version then { x with rows := x.rows.map put } else x } }

/-- Modules that hold copies of a row beside its home: replicas, and replicas on their way out (R254). -/
def State.copiesOf (s : State) (table row : Nat) : List Nat :=
  match s.listOf table row with
  | some l => l.holders ++ l.leaving.map (·.1)
  | none => []

/-- Sum of a row and the deltas of one window, in order (R258). -/
def applyDeltas (v : RowVal) (ds : List (List F32)) : RowVal :=
  { v with elems := (ds.foldl addRows (v.elems.map (BitVec.ofNat 32))).map (·.toNat) }

/-- The deltas of one row in one window take effect, visible from `vis` on; the new value goes to every copy and into the
journal (R258, R259, R268). -/
def State.applyRow (s : State) (d : TableDesc) (row w vis : Nat) (qs : List QueuedDelta) : State :=
  match s.poolRow d.tableId d.version row with
  | none => qs.foldl (State.ackQueued false false) s
  | some r =>
    let new := applyDeltas r.value (qs.map (·.deltas))
    let r1 : PoolRow := { r with value := new, prev := (vis, r.value) :: r.prev }
    let s1 := s.modRow d row fun _ => r1
    let s2 := ({ s1 with pool := { s1.pool with journal := s1.pool.journal ++ [(w, d.tableId, row, new)] } } : State).hotPages
      (s1.flash.hotAppend hotJournal)
    let s3 := (s2.copiesOf d.tableId row).foldl (fun s id => s.sendReplica d r1 id) s2
    qs.foldl (State.ackQueued true false) s3

/-- Puts deltas back: they wait for a rebuild, which counts them, or for the switch of a migration (R261, R268). -/
def State.delayDeltas (s : State) (qs : List QueuedDelta) (counted : Bool) : State :=
  ({ s with pool := { s.pool with queue := s.pool.queue ++ qs } } : State).count 0x50100B (if counted then qs.length else 0)

/-- What one row's deltas of a closed window come to: forwarded, waiting, or applied. Those that a pair mirrors here wait one window
more, for what the primary still mirrors of the closed one (R267; log 131). -/
def State.closeRow (s : State) (w : Nat) (k : Nat × Nat) (qs : List QueuedDelta) : State :=
  match s.table k.1 with
  | none => qs.foldl (State.ackQueued false true) s
  | some d =>
    if s.frozenFor k.1 k.2 w then qs.foldl (State.forwardDelta d) s
    else if s.migrating k.1 k.2 true || (!s.homeHere k.1 k.2 && !s.migrating k.1 k.2 false) then s.delayDeltas qs false
    else if (s.poolRow d.tableId d.version k.2).any (·.lost) then s.delayDeltas qs true
    else s.applyRow d k.2 w ((w + 3) * 50000) qs

/-- Order of the deltas of one row and window: the source, then that source's own before its late ones (R258). -/
def deltaLe (a b : QueuedDelta) : Bool := a.source < b.source || (a.source = b.source && a.seq ≤ b.seq)

/-- Closes one window. -/
def State.closeWindow (s : State) (w : Nat) : State :=
  let mine := s.pool.queue.filter fun q => q.window = w
  let s1 : State := { s with pool := { s.pool with queue := s.pool.queue.filter fun q => q.window ≠ w } }
  let keys := (mine.map fun q => (q.table, q.row)).eraseDups
  keys.foldl (fun s k => s.closeRow w k (sortBy deltaLe (mine.filter fun q => q.table = k.1 && q.row = k.2))) s1

/-- Applies the waiting deltas of the windows before a bound on given rows, in window order. -/
def State.catchUp (s : State) (bound : Nat) (vis : Nat → Time) (on : Nat → Nat → Bool) : State :=
  let due (q : QueuedDelta) : Bool := q.window < bound && on q.table q.row
  let mine := s.pool.queue.filter due
  let s1 : State := { s with pool := { s.pool with queue := s.pool.queue.filter fun q => !due q } }
  let keys := (mine.map fun q => (q.window, q.table, q.row)).eraseDups
  (sortBy (fun a b => a.1 ≤ b.1) keys).foldl (fun s k =>
    let qs := sortBy deltaLe (mine.filter fun q => q.window = k.1 && q.table = k.2.1 && q.row = k.2.2)
    match s.table k.2.1 with
    | some d => s.applyRow d k.2.2 k.1 (vis k.1) qs
    | none => qs.foldl (State.ackQueued false true) s) s1

/-- Waiting windows of rows that come back take effect, visible 50 µs from now (R261, R268). -/
def State.catchUpNow (s : State) (on : Nat → Nat → Bool) : State := s.catchUp s.pool.closedTo (fun _ => s.now + 50000) on

/-- POOL_WINDOW_CLOSE at (w + 2) × 50 µs: every window up to `w` that is still open closes, in order. -/
def State.windowClose (s : State) (w : Nat) : State :=
  if s.now < (w + 2) * 50000 || w < s.pool.closedTo then s else
  let ws := ((s.pool.queue.filter fun q => s.pool.closedTo ≤ q.window && q.window ≤ w).map (·.window)).eraseDups
  let s1 : State := { s with pool := { s.pool with closedTo := w + 1 } }
  ((sortBy (fun a b => a ≤ b) ws).foldl State.closeWindow s1).catchUp w (fun v => (v + 3) * 50000) s.pairHalf

def execPoolWindowClose (t w : Nat) (s : State) : Host.Outcome State Fault Refusal := .next ((s.tick t).windowClose w)

/-- V(w): reads carrying T ≥ V(w) see the window's values, by the times kept with them (R259). -/
def execPoolWindowVisible (t w : Nat) (s : State) : Host.Outcome State Fault Refusal :=
  let s1 := s.tick t
  .next (if (w + 3) * 50000 ≤ s1.now then { s1 with pool := { s1.pool with visibleTo := max s1.pool.visibleTo (w + 1) } } else s1)

/-- Values before V(w) go at V(w) + 100 µs (R259). -/
def State.expirePrev (s : State) (w : Nat) : State :=
  let v := (w + 3) * 50000
  if s.now < v + 100000 then s else
  let keep (l : List (Time × RowVal)) : List (Time × RowVal) := l.filter fun p => v < p.1
  let row (r : PoolRow) : PoolRow := { r with prev := keep r.prev }
  { s with pool := { s.pool with
      tables := s.pool.tables.map (fun x => { x with rows := x.rows.map row })
      replicas := s.pool.replicas.map fun r => { r with prev := keep r.prev } } }

def execPreviousValueExpiry (t w : Nat) (s : State) : Host.Outcome State Fault Refusal := .next ((s.tick t).expirePrev w)

/-! ### Checkpoint, rebuild (R268) -/

/-- A checkpoint of every trainable row held here; the journal begins anew (R268). -/
def State.checkpointPool (s : State) : State :=
  let rows := s.pool.tables.flatMap fun x => if x.desc.trainable && (s.table x.desc.tableId).any (fun d => d.version = x.desc.version)
    then (x.rows.filter fun r => !r.lost).map fun r => (x.desc.tableId, r.row, r.value) else []
  let old := s.pool.checkpoint.filter fun c => !(rows.any fun r => r.1 = c.1 && r.2.1 = c.2.1)
  let lostJ := s.pool.journal.filter fun j => !(rows.any fun r => r.1 = j.2.1 && r.2.1 = j.2.2.1)
  let bytes := (rows.map fun r => 4 * r.2.2.elems.length).sum
  ({ s with pool := { s.pool with checkpoint := rows ++ old, journal := lostJ } } : State).hotPages
    (s.flash.mapPage.hotObject hotCheckpoint (ceilDiv bytes 16384))

def execPoolCheckpoint (t : Nat) (s : State) : Host.Outcome State Fault Refusal := .next (s.tick t).checkpointPool

/-- The value a row is rebuilt to: the checkpoint with the journal replayed, or the image part (R268). -/
def State.rebuilt (s : State) (x : PoolTable) (row : Nat) : Option RowVal :=
  let img := getKey x.imageRows row
  if !x.desc.trainable then img else
  match (s.pool.journal.filter fun j => j.2.1 = x.desc.tableId && j.2.2.1 = row).getLast? with
  | some j => some j.2.2.2
  | none =>
    match s.pool.checkpoint.find? fun c => c.1 = x.desc.tableId && c.2.1 = row with
    | some c => some c.2.2
    | none => img

/-- POOL_ROW_REBUILD_DONE: the row is back; its waiting deltas are applied (R268). -/
def State.rebuildRow (s : State) (table row : Nat) : State :=
  match s.table table with
  | none => s
  | some d =>
    match s.poolTable table d.version, s.poolRow table d.version row with
    | some x, some r =>
      if !r.lost then s else
      (match s.rebuilt x row with
        | none => s
        | some v =>
          ((s.modRow d row fun r => { r with value := v, prev := [], lost := false }).count 0x50100F 1).catchUpNow
            fun a b => a = table && b = row)
    | _, _ => s

def execPoolRowRebuildDone (t table row : Nat) (s : State) : Host.Outcome State Fault Refusal :=
  .next ((s.tick t).rebuildRow table row)

end Sys2Proof.Machine
end

