-- ==== Sys2Proof/Machine/Publish.lean ====
section
/-!
DEFINITION. Publication of table parts and range maps, their switch and abandonment (R263..R266), migration of rows
(R261, R262), maps from the fabric (R243, R244).
-/
namespace Sys2Proof.Machine

/-! ### The block of R263 -/

def pObject (w : BitVec 512) : Nat := bits w.toNat 511 504
def pSource (w : BitVec 512) : Nat := bits w.toNat 503 496
def pImage (w : BitVec 512) : Nat := bits w.toNat 479 448
def pSwitch (w : BitVec 512) : Nat := bits w.toNat 447 384
def pLength (w : BitVec 512) : Nat := bits w.toNat 383 320
def pTable (w : BitVec 512) : Nat := bits w.toNat 319 288
def pNewHome (w : BitVec 512) : Nat := bits w.toNat 287 256
def pLo (w : BitVec 512) : Nat := bits w.toNat 255 192
def pHi (w : BitVec 512) : Nat := bits w.toNat 191 128

/-- Fields of the block in their ranges for an object. -/
def State.publishFields (s : State) (obj : Nat) (w : BitVec 512) : Bool :=
  pObject w = obj && pSource w ≤ 1 && bits w.toNat 495 480 = 0 && bits w.toNat 127 0 = 0
    && (pSource w = 1 || pImage w = 0) && pLength w ≠ 2 ^ 64 - 1 && (pSource w = 0 || pLength w = 0)
    && (if obj = 2 then pSource w = 0 && pSwitch w = 0 && pLength w = 0 && pLo w ≤ pHi w
        else pTable w = 0 && pNewHome w = 0 && pLo w = 0 && pHi w = 0 && s.now + 1000000 ≤ pSwitch w)

/-- A descriptor in the ranges of R240. -/
def descOk (d : TableDesc) : Bool :=
  1 ≤ d.tableId && d.tableId ≤ 0xFFFFFFFE && d.version < 65536 && 1 ≤ d.rowCount && d.rowCount ≤ 0xFFFFFFFFFFFFFFFE
    && 1 ≤ d.dim && d.dim ≤ 1024 && d.format ∈ [1, 2, 3, 6] && (d.format ≠ 3 || d.dim % 32 = 0)
    && (if d.format = 3 then d.subfmt ≤ 1 else d.subfmt = 0) && (!d.trainable || d.format = 6) && rowOk d d.default

/-- Range entries of one table cover its rows without gap or overlap, in order (R243). -/
def covers (rows : Nat) : Nat → List (BitVec 256) → Bool
  | at_, [] => at_ = rows
  | at_, w :: rest => rgLo w = at_ && rgLo w ≤ rgHi w && rgHi w < rows && bits w.toNat 63 1 = 0 && covers rows (rgHi w + 1) rest

/-- A list of pairs rises strictly. -/
def rising : List (Nat × Nat) → Bool
  | a :: b :: r => (a.1 < b.1 || (a.1 = b.1 && a.2 < b.2)) && rising (b :: r)
  | _ => true

/-- The conditions of R242 and R243 on a map. -/
def mapOk (m : MapImage) : Bool :=
  m.epoch < 2 ^ 32 && m.descs.length ≤ 1024 && m.ranges.length ≤ 65536 && m.descs.all descOk
    && rising (m.ranges.map fun w => (rgTable w, rgLo w))
    && (m.descs.map (·.tableId)).eraseDups.length = m.descs.length
    && (m.ranges.all fun w => validIdent (rgHome w) && m.descs.any fun d => d.tableId = rgTable w)
    && m.descs.all fun d => covers d.rowCount 0 (m.ranges.filter fun w => rgTable w = d.tableId)

/-- Epoch `a` is later than `b` in serial-number arithmetic (R244). -/
def laterEpoch (a b : Nat) : Bool :=
  let d := (a + 2 ^ 32 - b % 2 ^ 32) % 2 ^ 32
  0 < d && d < 2 ^ 31

/-! ### Checks -/

/-- The image that a TABLE or MAP names, and the first failing rule before its own (R263). -/
def State.publishImage (s : State) (r : Request) (p : PublishPayload) (obj : Nat) : Option Status × Option SignedImage :=
  let w := p.blk
  let st := if pSource w = 1 then s.storedFor (pImage w) r.fn else none
  let img := if pSource w = 1 then st.map (·.image) else p.image
  let kind := match img.map (·.img) with
    | some (.table _) => obj = 0
    | some (.rangeMap _) => obj = 1
    | _ => false
  (firstOf [
    (dPayLen r.desc < 64, .lengthExceeds),
    (!s.publishFields obj w, .fieldReserved),
    (dPayLen r.desc < 64 + pLength w, .lengthExceeds),
    (pSource w = 1 && st.isNone, .unknownObject),
    (st.any (·.damaged), .internalFault),
    (img.isNone || !kind, .fieldReserved),
    (img.any fun x => !s.sigOk x, .accessDenied)], img)

/-- Versions of a table that are live. -/
def State.liveVersions (s : State) (id : Nat) : Nat := (s.pool.tables.filter fun x => x.desc.tableId = id).length

/-- A publication of a table is staged. -/
def State.stagedTable (s : State) (id : Nat) : Bool := s.pool.staged.any fun p => p.table.any fun x => x.desc.tableId = id

/-- A part against the map in force and the staged ones (R240, R264). -/
def State.checkPart (s : State) (x : TableImage) (switch : Nat) : Option Status :=
  let d := x.desc
  let other := s.pool.staged.findSome? fun p => if p.switchTime = switch then p.map.bind fun m =>
    m.descs.find? fun y => y.tableId = d.tableId else none
  firstOf [
    (!descOk d || !rising (x.rows.map fun r => (r.1, 0)) || !(x.rows.all fun r => r.1 < d.rowCount && rowOk d r.2), .fieldReserved),
    (other.any fun y => y ≠ d, .fieldReserved),
    ((s.table d.tableId).any fun c => !laterVersion d.version c.version, .versionStale),
    (2 ≤ s.liveVersions d.tableId || s.stagedTable d.tableId, .stateConflict),
    (s.lendBytes < s.lendUsed + rowBytes d * x.rows.length, .refusedCapacity)]

/-- Ranges whose home this module is: alone, or as half of the pair (R267). -/
def State.mineRange (s : State) (w : BitVec 256) : Bool := s.isSelf (rgHome w) || (rgPaired w && rgHome w = s.entry 0xA10001)

/-- A loaded part of a switch time holds every row of a range. -/
def State.partCovers (s : State) (switch table lo hi : Nat) : Bool :=
  s.pool.staged.any fun p => p.switchTime = switch && p.loaded && p.table.any fun x =>
    x.desc.tableId = table && (x.rows.filter fun r => lo ≤ r.1 && r.1 ≤ hi).length = hi + 1 - lo

/-- Rows of a new range whose home it takes from an old one. -/
def takenFrom (o w : BitVec 256) : Option (Nat × Nat) :=
  let lo := max (rgLo o) (rgLo w)
  let hi := min (rgHi o) (rgHi w)
  if rgTable o = rgTable w && rgHome o ≠ rgHome w && lo ≤ hi then some (lo, hi) else none

/-- The changes of home of a map (R265): for rows that come here a loaded part of the same switch time holds them; between other
modules only with a new version, as no part brings one in force (log 53). -/
def State.homesOk (s : State) (m : MapImage) (switch : Nat) : Bool :=
  m.ranges.all fun w => s.pool.ranges.all fun o => match takenFrom o w with
    | none => true
    | some (lo, hi) =>
      if s.mineRange w then s.mineRange o || s.partCovers switch (rgTable w) lo hi
      else m.descs.any fun d => d.tableId = rgTable w && (s.table d.tableId).any fun c => c.version ≠ d.version

/-- A map against the one in force (R243, R244, R264, R265). -/
def State.checkMap (s : State) (m : MapImage) (switch : Nat) : Option Status :=
  firstOf [
    (!mapOk m, .fieldReserved),
    (s.pool.haveMap && !laterEpoch m.epoch s.pool.epoch.toNat, .versionStale),
    (m.descs.any fun d => (s.table d.tableId).any fun c => d.version = c.version && d ≠ c, .fieldReserved),
    (m.descs.any fun d => (s.table d.tableId).any fun c => d.version ≠ c.version && !laterVersion d.version c.version, .versionStale),
    (m.descs.any fun d => (s.table d.tableId).any fun c => d.version ≠ c.version && 2 ≤ s.liveVersions d.tableId, .stateConflict),
    (!s.homesOk m switch, .stateConflict)]

/-- Ranges after the move of rows to a new home (R261). -/
def splitRange (w : BitVec 256) (lo hi home : Nat) : List (BitVec 256) :=
  (if rgLo w < lo then [mkRange (rgTable w) (rgHome w) (rgLo w) (lo - 1) (rgPaired w)] else [])
    ++ [mkRange (rgTable w) home lo hi false]
    ++ (if hi < rgHi w then [mkRange (rgTable w) (rgHome w) (hi + 1) (rgHi w) (rgPaired w)] else [])

/-- The map in force with rows moved. -/
def State.movedRanges (s : State) (table lo hi home : Nat) : List (BitVec 256) :=
  s.pool.ranges.flatMap fun w => if rgTable w = table && rgLo w ≤ lo && hi ≤ rgHi w then splitRange w lo hi home else [w]

/-- Checks of a MIGRATE (R262); the new home's free lend space comes with the command (log 140). -/
def State.checkMigrate (s : State) (r : Request) (p : PublishPayload) : Option Status :=
  let w := p.blk
  let need := (pHi w + 1 - pLo w) * (s.table (pTable w)).elim 0 rowBytes
  firstOf [
    (dPayLen r.desc < 64, .lengthExceeds),
    (!s.publishFields 2 w, .fieldReserved),
    ((s.table (pTable w)).isNone, .unknownObject),
    (s.pool.migration.isSome, .stateConflict),
    (1048576 ≤ pHi w - pLo w, .fieldReserved),
    (!(s.pool.ranges.any fun x => rgTable x = pTable w && s.isSelf (rgHome x) && rgLo x ≤ pLo w && pHi w ≤ rgHi x), .fieldReserved),
    (!s.partner (pNewHome w), .unknownObject),
    (p.space < need, .refusedCapacity),
    (65536 < (s.movedRanges (pTable w) (pLo w) (pHi w) (pNewHome w)).length, .stateConflict),
    (s.stagedTable (pTable w) || 2 ≤ s.liveVersions (pTable w), .stateConflict)]

/-! ### The commands -/

/-- Accepts a TABLE_PUBLISH and stages what it brings. -/
def State.stage (s : State) (r : Request) (p : PublishPayload) (x : StagedPub) : State :=
  ({ s with pool := { s.pool with staged := s.pool.staged ++ [x] } } : State).accept
    { r with publish := some p, promise := promiseOf s r 0 1 0 0 }

/-- Refuses a publication; REFUSED_CAPACITY is a refusal, the others a failed check. -/
def State.refusePublish (s : State) (r : Request) (st : Status) : State := s.reject r st (st ≠ .refusedCapacity)

/-- TABLE_PUBLISH with a table part. -/
def State.publishTable (s : State) (r : Request) (p : PublishPayload) : State :=
  match s.publishImage r p 0 with
  | (some st, _) => s.refusePublish r st
  | (none, some x) =>
    (match x.img with
      | .table m =>
        (match s.checkPart m (pSwitch p.blk) with
          | some st => s.refusePublish r st
          | none => s.stage r p { switchTime := pSwitch p.blk, table := some m, fn := r.fn, tag := r.tag })
      | _ => s.refusePublish r .fieldReserved)
  | (none, none) => s.refusePublish r .fieldReserved

/-- TABLE_PUBLISH with a map. -/
def State.publishMap (s : State) (r : Request) (p : PublishPayload) : State :=
  match s.publishImage r p 1 with
  | (some st, _) => s.refusePublish r st
  | (none, some x) =>
    (match x.img with
      | .rangeMap m =>
        (match s.checkMap m (pSwitch p.blk) with
          | some st => s.refusePublish r st
          | none => s.stage r p
              { switchTime := pSwitch p.blk, map := some m, loaded := true, fn := r.fn, tag := r.tag })
      | _ => s.refusePublish r .fieldReserved)
  | (none, none) => s.refusePublish r .fieldReserved

/-- TABLE_PUBLISH with a migration: W_F is the first window boundary after acceptance (R261). -/
def State.publishMigrate (s : State) (r : Request) (p : PublishPayload) : State :=
  let w := p.blk
  match s.checkMigrate r p with
  | some st => s.refusePublish r st
  | none =>
    let m : Migration := { table := pTable w, lo := pLo w, hi := pHi w, newHome := pNewHome w, freeze := stepOf s.now + 1
                           fn := r.fn, tag := r.tag }
    ({ s with pool := { s.pool with migration := some m } } : State).accept
      { r with publish := some p, promise := promiseOf s r 0 1 0 0 }

def execTablePublishTable (t : Nat) (x : Fetched) (p : PublishPayload) (s : State) : Host.Outcome State Fault Refusal :=
  .next (withFetch 0x12 x false (s.tick t) fun r s => s.publishTable r p)

def execTablePublishMap (t : Nat) (x : Fetched) (p : PublishPayload) (s : State) : Host.Outcome State Fault Refusal :=
  .next (withFetch 0x12 x false (s.tick t) fun r s => s.publishMap r p)

def execTablePublishMigrate (t : Nat) (x : Fetched) (p : PublishPayload) (s : State) : Host.Outcome State Fault Refusal :=
  .next (withFetch 0x12 x false (s.tick t) fun r s => s.publishMigrate r p)

/-! ### Switches (R213 item 4, R264..R266) -/

/-- The rows of a staged part are loaded; 500 µs before its switch is the last time for it (R265). -/
def execTablePartLoaded (t table : Nat) (s : State) : Host.Outcome State Fault Refusal :=
  let s1 := s.tick t
  let mark (p : StagedPub) : StagedPub :=
    if p.table.any (fun x => x.desc.tableId = table) && s1.now + 500000 ≤ p.switchTime then { p with loaded := true } else p
  .next { s1 with pool := { s1.pool with staged := s1.pool.staged.map mark } }

/-- The FINAL entry of a publication's request. -/
def State.endPublish (s : State) (p : StagedPub) (st : Status) : State :=
  match s.req p.fn p.tag with
  | some r => if r.publish.isSome then s.finish r { status := st, final := true } else s
  | none => s

/-- Deltas queued or not yet sent for a table whose version switches are discarded (R266). -/
def State.discardDeltas (s : State) (table : Nat) : State :=
  let q := s.pool.queue.filter fun x => x.table = table
  let o := s.pool.outgoing.filter fun x => x.table = table
  let s1 : State := { s with pool := { s.pool with
    queue := s.pool.queue.filter (fun x => x.table ≠ table), outgoing := s.pool.outgoing.filter fun x => x.table ≠ table } }
  (q ++ o).foldl (fun s x => (s.count 0x50100A 1).ackDelta x.source x.key false true) s1

/-- A new map is in force (R244, R261, R264, R266): rows copied here for their new home are home rows, and their image part too (log
186); lists of rows that move or change version, replicas of rows that move, journals of changed tables go; an old version stays
for reads. -/
def State.adoptMap (s : State) (m : MapImage) : State :=
  let changed (id : Nat) : Bool := (s.table id) ≠ m.descs.find? fun d => d.tableId = id
  let ids := ((s.pool.descs.map (·.tableId)).eraseDups).filter changed
  let s1 := ids.foldl State.discardDeltas s
  let mineR (t row : Nat) : Bool := (rangeIn m.ranges t row).any s.mineRange
  let moved (t row : Nat) : Bool := (rangeIn m.ranges t row).elim 0 rgHome ≠ s.homeOf t row
  let fromRep (d : TableDesc) (rows : List PoolRow) : List PoolRow :=
    (s1.pool.replicas.filter fun r => r.table = d.tableId && r.version = d.version && m.descs.contains d && mineR r.table r.row
      && !(rows.any fun y => y.row = r.row)).map fun r => { row := r.row, value := r.value, prev := r.prev }
  let grown (x : PoolTable) : PoolTable :=
    let new := fromRep x.desc x.rows
    { x with rows := x.rows ++ new, imageRows := x.imageRows ++ new.map fun r => (r.row, r.value) }
  let turn (x : PoolTable) : PoolTable :=
    let cur := m.descs.contains x.desc
    { grown x with current := cur, until_ := if x.current && !cur then s1.now + 100000 else x.until_ }
  let tables := s1.pool.tables.map turn
  let fresh := (m.descs.filter fun d => !(tables.any fun x => x.desc = d)).map fun d => grown { desc := d }
  { s1 with pool := { s1.pool with
      epoch := BitVec.ofNat 32 m.epoch, haveMap := true, descs := m.descs, ranges := m.ranges
      tables := tables ++ fresh, epochWindow := stepOf s1.now
      replicas := s1.pool.replicas.filter (fun r => !moved r.table r.row && !mineR r.table r.row)
      lists := s1.pool.lists.filter (fun l => !changed l.table && !moved l.table l.row)
      journal := s1.pool.journal.filter (fun j => !changed j.2.1)
      checkpoint := s1.pool.checkpoint.filter fun c => !changed c.1 } }

/-- A loaded part's rows enter the lend area under its descriptor (R264, R266). -/
def State.adoptPart (s : State) (x : TableImage) : State :=
  let mine := x.rows.filter fun r => (rangeIn s.pool.ranges x.desc.tableId r.1).any s.mineRange
  let rows := mine.map fun r => ({ row := r.1, value := r.2 } : PoolRow)
  { s with pool := { s.pool with tables := (s.pool.tables.filter fun y => y.desc ≠ x.desc)
      ++ [{ desc := x.desc, rows := rows, imageRows := mine }] } }

/-- Staged by a TABLE_PUBLISH, not by a map of a migration. -/
def published (p : StagedPub) : Bool := p.fn ≠ 65536

/-- Everything staged for a switch time is in place. -/
def State.switchReady (s : State) (time : Time) : Bool := (s.pool.staged.filter fun p => published p && p.switchTime = time).all (·.loaded)

/-- One switch: the map, then the parts whose descriptor it carries; each TABLE_PUBLISH ends (R264, R265). -/
def State.switchAt (s : State) (time : Time) : State :=
  let due := s.pool.staged.filter fun p => published p && p.switchTime = time
  let s1 : State := { s with pool := { s.pool with staged := s.pool.staged.filter fun p => !published p || p.switchTime ≠ time } }
  let maps := due.filterMap (·.map)
  let s2 := maps.foldl State.adoptMap s1
  let new := (maps.flatMap (·.descs)).filter fun d => (s.table d.tableId).any fun c => c.version ≠ d.version
  let s3 := due.foldl (fun s p => match p.table with
    | some x => if s.pool.descs.contains x.desc then (s.adoptPart x).endPublish p .done else s.endPublish p .fieldReserved
    | none => s.endPublish p .done) s2
  ({ s3 with pair := { s3.pair with switched := s3.pair.switched ++ new.map fun d => (d.tableId, d.version) } } : State).prunePool

/-- Item 4 of a boundary: the earliest ready switch whose time has come; MAP_EPOCH advances at most once per window (R213,
R244). -/
def State.poolSwitch (s : State) : State :=
  if s.pool.haveMap && s.pool.epochWindow = stepOf s.now then s.prunePool else
  match (sortBy (fun (a b : StagedPub) => a.switchTime ≤ b.switchTime) (s.pool.staged.filter fun p =>
      published p && p.switchTime ≤ s.now && s.switchReady p.switchTime)).head? with
  | some p => s.switchAt p.switchTime
  | none => s.prunePool

/-- The switch of table versions that the primary of the pair has switched (R267, R299): what is staged for them here. -/
def State.mirrorSwitch (s : State) (vs : List (Nat × Nat)) : State :=
  match s.pool.staged.find? fun p => published p && s.switchReady p.switchTime
      && p.map.any fun m => m.descs.any fun d => vs.contains (d.tableId, d.version) && s.table d.tableId ≠ some d with
  | some p => s.switchAt p.switchTime
  | none => s

/-- Modules named in the map in force and in the staged maps. -/
def State.mapModules (s : State) : List Nat :=
  ((s.pool.ranges ++ s.pool.staged.flatMap fun p => p.map.elim [] (·.ranges)).map rgHome).eraseDups.filter fun id => !s.isSelf id

/-- A version is abandoned: what is staged for its switch time is discarded, and the requests end (R265). -/
def State.discardStaged (s : State) (time : Time) (st : Status) : State :=
  let due := s.pool.staged.filter fun p => published p && p.switchTime = time
  let s1 : State := { s with pool := { s.pool with staged := s.pool.staged.filter fun p => !published p || p.switchTime ≠ time } }
  due.foldl (fun s p => s.endPublish p st) s1

/-- The publication that a table's abandonment names: its part, or a map that brings it a new version. -/
def State.stagedFor (s : State) (table : Nat) : Option StagedPub :=
  match s.pool.staged.find? fun p => p.table.any fun x => x.desc.tableId = table with
  | some p => some p
  | none => s.pool.staged.find? fun p => p.map.any fun m => m.descs.any fun d =>
      d.tableId = table && (s.table table).any (fun c => c.version ≠ d.version)

/-- A home whose part is not loaded by SWITCH_TIME − 500 µs, or whose load failed, abandons the version and says so to every
module in the map (R265). -/
def State.abandonPart (s : State) (table : Nat) (failed : Bool) : State :=
  match s.stagedFor table with
  | none => s
  | some p =>
    if (p.loaded && p.table.isSome) || (!failed && s.now + 500000 < p.switchTime) then s else
    let st := if failed then Status.internalFault else .refusedCapacity
    let s1 := s.mapModules.foldl (fun s id => if s.partner id then
      s.emit (.fabric id 0x08 [2, 0, table]
        (publishWire 6 (p.table.elim 0 (·.desc.version)) p.switchTime (statusCode st))) else s) s
    s1.discardStaged p.switchTime st

def execTablePublishAbandon (t table : Nat) (failed : Bool) (s : State) : Host.Outcome State Fault Refusal :=
  .next ((s.tick t).abandonPart table failed)

/-! ### Maps from the fabric (R261, R287) -/

/-- A map of a migration is staged until its CUT; one that is not later or breaks R243 is dropped. -/
def State.takeMap (s : State) (m : MapImage) (cut : Time) : State :=
  if !mapOk m || (s.pool.haveMap && !laterEpoch m.epoch s.pool.epoch.toNat) then s
  else { s with pool := { s.pool with staged := s.pool.staged ++
    [{ switchTime := cut, map := some m, loaded := true, fn := 65536, tag := 0 }] } }

def execMap (t : Nat) (hdr : BitVec 256) (m : MapImage) (cut : Time) (s : State) : Host.Outcome State Fault Refusal :=
  .next ((s.tick t).receive 0x35 4 hdr fun _ s => s.takeMap m cut)

/-! ### Migration (R261) -/

/-- W_F: the old copy is read-only from now on. -/
def State.freeze (s : State) : State :=
  match s.pool.migration with
  | none => s
  | some m => if m.incoming || stepOf s.now < m.freeze then s
    else { s with pool := { s.pool with migration := some { m with frozen := true } } }

def execMigrateFreeze (t : Nat) (s : State) : Host.Outcome State Fault Refusal := .next (s.tick t).freeze

/-- The first window boundary at least 100 µs after now. -/
def cutAfter (now : Time) : Time := roundUp (now + 100000) 50000

/-- The frozen rows that a migration copies (R261). -/
def State.frozenRows (s : State) (m : Migration) (d : TableDesc) : List PoolRow :=
  ((s.poolTable m.table d.version).elim [] (·.rows)).filter fun r => m.lo ≤ r.row && r.row ≤ m.hi && !r.lost

/-- Bytes of the serve allotment that a copy may have taken since the last window before W_F closed (R252, R261). -/
def State.copyRoom (s : State) (m : Migration) : Nat := (stepOf s.now - m.freeze) * s.entry 0x500003

/-- The bytes of a copy that end in this step are served ones. -/
def State.serveCopy (s : State) (bytes : Nat) : State :=
  let step := stepOf s.now
  let used := if s.pool.servedStep = step then s.pool.served else 0
  { s with pool := { s.pool with servedStep := step, served := min (s.entry 0x500003) (used + bytes) } }

/-- The copy ends: the rows have gone to the new home, from the serve allotment; the new map with CUT goes to every module
(R261). -/
def State.copyEnd (s : State) : State :=
  match s.pool.migration with
  | none => s
  | some m =>
    match s.table m.table with
    | none => s
    | some d =>
      let rows := s.frozenRows m d
      let bytes := rows.length * rowBytes d
      if m.incoming || !m.frozen || m.copied || s.pool.closedTo < m.freeze || s.copyRoom m < bytes then s else
      let s1 := rows.foldl (fun s r => s.sendCopy d r m.newHome) (s.serveCopy bytes)
      let cut := cutAfter s.now
      let epoch := (s.pool.epoch.toNat + 1) % 2 ^ 32
      let map : MapImage := { epoch := epoch, descs := s.pool.descs
                              ranges := s.movedRanges m.table m.lo m.hi m.newHome }
      let s2 := (s1.fab.sessions.filter fun x => x.state = .opened).foldl
        (fun s x => s.emit (.fabric x.ident 0x35 [epoch, cut] (mapWire epoch cut map.ranges))) s1
      { s2 with pool := { s2.pool with
          migration := some { m with copied := true, cut := some cut }
          staged := s2.pool.staged ++ [{ switchTime := cut, map := some map, loaded := true, fn := 65536, tag := 0 }] } }

def execMigrateCopyDone (t : Nat) (s : State) : Host.Outcome State Fault Refusal := .next (s.tick t).copyEnd

/-- The replicas of migrated rows are announced as removed at CUT (R261). -/
def State.dropLists (s : State) (m : Migration) (cut : Time) : State :=
  let ls := s.pool.lists.filter fun l => l.mine && l.table = m.table && m.lo ≤ l.row && l.row ≤ m.hi
  ls.foldl (fun s l => (l.holders.foldl (fun s id => s.sendRemoval id l.table l.row cut) s).count 0x50100D l.holders.length) s

/-- Rows of one range that the module newly homes under a staged map: it queues their deltas until the switch. -/
def State.incomingOf (s : State) (m : MapImage) (cut : Time) : Option Migration :=
  (m.ranges.find? fun w => s.isSelf (rgHome w) && !s.homeHere (rgTable w) (rgLo w)).map fun w =>
    { table := rgTable w, lo := rgLo w, hi := rgHi w, newHome := rgHome w, freeze := 0, frozen := true, copied := true
      cut := some cut, fn := 65536, tag := 0, incoming := true }

/-- MIGRATE_CUT: the map with CUT is in force at every module (R261). -/
def State.cutMap (s : State) : State :=
  match (s.pool.staged.find? fun p => p.fn = 65536 && p.switchTime ≤ s.now).bind fun p => p.map.map fun m => (p, m) with
  | none => s
  | some (p, m) =>
    let out := s.pool.migration.filter fun g => !g.incoming && g.cut = some p.switchTime
    let inc := s.incomingOf m p.switchTime
    let s1 := match out with
      | some g => s.dropLists g p.switchTime
      | none => s
    let s2 : State := { s1 with pool := { s1.pool with
      staged := s1.pool.staged.filter (fun q => !(q.fn = 65536 && q.switchTime = p.switchTime))
      migration := match inc with
        | some g => some g
        | none => s1.pool.migration } }
    s2.adoptMap m

def execMigrateCut (t : Nat) (s : State) : Host.Outcome State Fault Refusal := .next (s.tick t).cutMap

/-- MIGRATE_SWITCH: the old copy is freed and MIGRATE ends; the new home applies its queued windows (R261). -/
def State.migrateEnd (s : State) : State :=
  match s.pool.migration with
  | none => s
  | some m =>
    match m.cut with
    | none => s
    | some c =>
      if s.now < c then s else
      let covered (a b : Nat) : Bool := a = m.table && m.lo ≤ b && b ≤ m.hi
      let s1 : State := { s with pool := { s.pool with migration := none } }
      if m.incoming then s1.catchUpNow covered
      else if s.homeHere m.table m.lo then s
      else
        let keep (x : PoolTable) : PoolTable :=
          if x.desc.tableId = m.table then { x with rows := x.rows.filter fun r => !covered m.table r.row } else x
        let left := s.pool.queue.filter fun q => covered q.table q.row
        let s2 : State := { s1 with pool := { s1.pool with
          tables := s1.pool.tables.map keep, queue := s1.pool.queue.filter fun q => !covered q.table q.row } }
        let s3 := match s.table m.table with
          | some d => left.foldl (fun t q => State.forwardDelta d { t with pool := { t.pool with migration := some m } } q) s2
          | none => s2
        let s4 : State := { s3 with pool := { s3.pool with migration := none } }
        match s4.req m.fn m.tag with
        | some r => if r.publish.isSome then s4.finish r { status := .done, final := true } else s4
        | none => s4

def execMigrateSwitch (t : Nat) (s : State) : Host.Outcome State Fault Refusal := .next (s.tick t).migrateEnd

end Sys2Proof.Machine
end

