-- ==== Sys2Proof/Machine/Sampling.lean ====
section
/-!
DEFINITION. The draw and the sampling of a position (R225, R226), draft trees (R218, R219), the verification walk (R220).
-/
namespace Sys2Proof.Machine

/-! ### The uniform draw (R225) -/

/-- One mixing step: xor with itself shifted right, times a constant. -/
def mixStep (x : BitVec 64) (sh : Nat) (k : BitVec 64) : BitVec 64 := (x ^^^ (x >>> sh)) * k

/-- The two mixing steps and the last xor, shared with the step digest (R225, R302). -/
def mix64 (x : BitVec 64) : BitVec 64 :=
  let y := mixStep (mixStep x 30 0xBF58476D1CE4E5B9#64) 27 0x94D049BB133111EB#64
  y ^^^ (y >>> 31)

/-- The 24-bit w of generated index j. -/
def drawBits (seed : BitVec 64) (j : Nat) : Nat :=
  (mix64 (seed ^^^ (BitVec.ofNat 64 j * 0x9E3779B97F4A7C15#64)) >>> 40).toNat

/-- u = w × 2^-24, exact in FP32. -/
def drawU (seed : BitVec 64) (j : Nat) : F32 := toF32 (.fin false (drawBits seed j) (-24))

/-! ### Sampling (R226) -/

/-- A drawn token with its masses. -/
structure Drawn where
  token : Nat
  sel : F32 := 0
  left : F32 := 0
  forced : Bool := false
  deriving DecidableEq, Repr

/-- Tokens that a mask allows and whose logit is finite. -/
def allowed (m : Mask) (logits : List (Nat × F32)) : List (Nat × F32) :=
  logits.filter fun p => fFinite p.2 && (match m with
    | .ban l => !l.contains p.1
    | _ => true)

/-- Rank order: logit descending, ID ascending. -/
def rankLe (a b : Nat × F32) : Bool := fLt b.2 a.2 || (!fLt a.2 b.2 && a.1 ≤ b.1)

/-- Sequential FP32 sum. -/
def seqSum (l : List F32) : F32 := l.foldl fAdd 0

/-- The members of T, in rank order, while the prefix before them over ZT is below TOP_P. -/
def nucleus (topP rz : F32) : F32 → List (Nat × F32) → List (Nat × F32)
  | _, [] => []
  | acc, p :: rest => if fLt (fMul acc rz) topP then p :: nucleus topP rz (fAdd acc p.2) rest else []

/-- The first member whose running sum exceeds t; the last when there is none. -/
def pickAt (t : F32) : F32 → List (Nat × F32) → Nat
  | _, [] => 0
  | _, [p] => p.1
  | acc, p :: rest => if fLt t (fAdd acc p.2) then p.1 else pickAt t (fAdd acc p.2) rest

/-- MODE 1: temperature, TOP_K, TOP_P. -/
def sampleRanked (w : BitVec 512) (u : F32) (ranked : List (Nat × F32)) : Drawn :=
  let m := (ranked.head?.elim 0 (·.2))
  let c := fMul 0x3FB8AA3B#32 (fRecip (gTemp w))
  let es := ranked.map fun p => (p.1, fExp2 (fMul (fSub p.2 m) c))
  let z := seqSum (es.map (·.2))
  let ts := if gTopK w = 0 then es else es.take (gTopK w)
  let zt := seqSum (ts.map (·.2))
  let ps := nucleus (gTopP w) (fRecip zt) 0 ts
  let zp := seqSum (ps.map (·.2))
  let left := seqSum ((es.drop ps.length).map (·.2))
  { token := pickAt (fMul u zp) 0 ps, sel := fMul zp (fRecip z), left := fMul left (fRecip z) }

/-- A position is sampled; none when it has no candidate. -/
def samplePos (w : BitVec 512) (m : Mask) (j : Nat) (logits : List (Nat × F32)) : Option Drawn :=
  match m with
  | .force t => some { token := t, sel := 0x3F800000#32, forced := true }
  | _ =>
    let ranked := sortBy rankLe (allowed m logits)
    match ranked with
    | [] => none
    | p :: _ => some (if gMode w = 0 then { token := p.1 } else sampleRanked w (drawU (gSeed w) j) ranked)

/-! ### Draft trees (R219) -/

/-- A node under construction: its place (child ordinals from the root), input tokens from the root on, path
log-probability. -/
structure DraftNode where
  pos : List Nat
  toks : List Nat
  logp : F32
  deriving DecidableEq, Repr

/-- Lexicographic order of equal-length places. -/
def lexLe : List Nat → List Nat → Bool
  | a :: as, b :: bs => a < b || (a = b && lexLe as bs)
  | _, _ => true

/-- Breadth-first order. -/
def bfsLe (a b : DraftNode) : Bool := a.pos.length < b.pos.length || (a.pos.length = b.pos.length && lexLe a.pos b.pos)

/-- Children of a node in a tree. -/
def childrenOf (ns : List DraftNode) (n : DraftNode) : List DraftNode :=
  ns.filter fun c => c.pos.length = n.pos.length + 1 && c.pos.take n.pos.length = n.pos

/-- Log-softmax over a node's FP32 logits, without temperature or mask: each less the maximum and less ln 2 times log2 of the sum of
the exp2 of their scaled differences (R79, R219; the order of the operations: log 173). -/
def logSoftmax (ls : List (Nat × F32)) : List (Nat × F32) :=
  let m := laneMax (ls.map (·.2))
  let z := laneSum (ls.map fun p => fExp2 (fMul (fSub p.2 m) 0x3FB8AA3B#32))
  let c := fMul 0x3F317218#32 (fLog2 z)
  ls.map fun p => (p.1, fSub (fSub p.2 m) c)

/-- Order of a node's draft tokens: log-softmax descending, ID ascending. -/
def bestTok (l : List (Nat × F32)) : Option (Nat × F32) :=
  l.foldl (fun m p => match m with
    | none => some p
    | some b => if fLt b.2 p.2 || (!fLt p.2 b.2 && p.1 < b.1) then some p else m) none

/-- The best remaining child of a node, when it may take one: (node, token, path log-probability). -/
def nextChild (props : List DraftProp) (depth : Nat) (ns : List DraftNode) (n : DraftNode) : Option (Nat × F32) :=
  let kids := childrenOf ns n
  if 4 ≤ kids.length || depth ≤ n.toks.length then none
  else match props.find? fun p => p.path = n.toks with
    | none => none
    | some p =>
      let used := kids.filterMap fun c => c.toks.getLast?
      (bestTok ((logSoftmax p.logits).filter fun c => !used.contains c.1)).map fun c => (c.1, fAdd n.logp c.2)

/-- Best-first growth: the highest path log-probability, then the earlier node in breadth-first order. -/
def growTree (props : List DraftProp) (depth : Nat) : Nat → List DraftNode → List DraftNode
  | 0, ns => ns
  | fuel + 1, ns =>
    let best := (sortBy bfsLe ns).foldl (fun (m : Option (DraftNode × Nat × F32)) n =>
      match nextChild props depth ns n with
      | none => m
      | some c => (match m with
        | none => some (n, c)
        | some b => if fLt b.2.2 c.2 then some (n, c) else m)) none
    match best with
    | none => ns
    | some (n, tok, lp) =>
      growTree props depth fuel (ns ++ [{ pos := n.pos ++ [(childrenOf ns n).length], toks := n.toks ++ [tok], logp := lp }])

/-- A tree from the draft's proposals, numbered breadth-first. -/
def draftTree (props : List DraftProp) (last depth nodes : Nat) : List TreeNode :=
  let ns := sortBy bfsLe (growTree props depth (nodes - 1) [{ pos := [], toks := [last], logp := 0 }])
  ns.map fun n =>
    { parent := (ns.findIdx? fun p => p.pos = n.pos.dropLast).getD 0, token := n.toks.getLastD last, level := n.toks.length }

/-- A tree of the root alone. -/
def rootTree (last : Nat) : List TreeNode := [{ parent := 0, token := last, level := 1 }]

/-- Keeps the first `k` speculative nodes; the others go with their subtrees, which breadth-first numbers put behind them
(R200). -/
def pruneTree (t : List TreeNode) (k : Nat) : List TreeNode := t.take (k + 1)

/-! ### The verification walk (R220) -/

/-- What a walk is given: generation parameters, ending tokens, constraint entries, history the mask sees, indexes. -/
structure WalkIn where
  gen : BitVec 512
  ends : List Nat
  entries : List (BitVec 576)
  history : List Nat
  generated : Nat
  maxNew : Nat
  tree : List TreeNode
  logits : List (List (Nat × F32))

/-- The child of node v that carries a token and was run. -/
def childWith (x : WalkIn) (v tok : Nat) : Option Nat :=
  ((List.range (min x.tree.length x.logits.length)).find? fun i => i ≠ 0 && (x.tree[i]?).any fun n => n.parent = v && n.token = tok)

/-- The walk: tokens taken in order, the status that ends the stream, forced tokens that were banned too (R196). -/
def walkTree (x : WalkIn) : Nat → Nat → List TokenOut → Nat → List TokenOut × Option Status × Nat
  | 0, _, acc, fb => (acc, none, fb)
  | fuel + 1, v, acc, fb =>
    let m := if x.entries.isEmpty then (Mask.free, false) else maskAfter x.entries (x.history ++ acc.map (·.token))
    match samplePos x.gen m.1 (x.generated + acc.length) (x.logits.getD v []) with
    | none => (acc, some .internalFault, fb)
    | some d =>
      let acc1 := acc ++ [{ token := d.token, spec := !acc.isEmpty, forced := d.forced, sel := d.sel, left := d.left }]
      let fb1 := fb + m.2.toNat
      if x.ends.contains d.token then (acc1, some .stoppedToken, fb1)
      else if x.maxNew ≤ x.generated + acc1.length then (acc1, some .stoppedLength, fb1)
      else match childWith x v d.token with
        | none => (acc1, none, fb1)
        | some c => walkTree x fuel c acc1 fb1

end Sys2Proof.Machine
end

