-- ==== Sys2Proof/Machine/Records.lean ====
section
/-!
DEFINITION. Step batch records: stream entries, token words, notices, parts (R228..R234); LATE, RECOVERED and FAILED_OVER
(R55, R306, R378); their writing and the end of streams (R205, R217, R300).
-/
namespace Sys2Proof.Machine

/-! ### Entries -/

def eHandle (w : BitVec 128) : Nat := bits w.toNat 127 96
def eStatus (w : BitVec 128) : Nat := bits w.toNat 95 88
def eFinal (w : BitVec 128) : Bool := bits w.toNat 87 87 = 1
def eLc (w : BitVec 128) : Bool := bits w.toNat 86 86 = 1
def eNtok (w : BitVec 128) : Nat := bits w.toNat 83 80
def eNbytes (w : BitVec 128) : Nat := bits w.toNat 79 64
def eJ (w : BitVec 128) : Nat := bits w.toNat 63 32

/-- The entry with another status. -/
def withStatus (w : BitVec 128) (st : Nat) : BitVec 128 :=
  BitVec.ofNat 128 (w.toNat - eStatus w * 2 ^ 88 + st % 256 * 2 ^ 88)

/-- The entry with its byte offset. -/
def withOffset (w : BitVec 128) (off : Nat) : BitVec 128 := BitVec.ofNat 128 (w.toNat / 2 ^ 32 * 2 ^ 32 + off % 2 ^ 32)

/-- A token word (R233). -/
def tokenWord (mass : Bool) (t : TokenOut) : BitVec 64 :=
  let m (x : F32) : Nat := if mass then encodeF bf16 (f32 x) else 0
  BitVec.ofNat 64 (t.spec.toNat * 2 ^ 63 + t.forced.toNat * 2 ^ 62 + t.token % 2 ^ 18 * 2 ^ 32 + m t.sel * 2 ^ 16 + m t.left)

/-- The stream entry of a step's tokens (R231). -/
def tokenPart (handle : Nat) (mass : Bool) (o : StepOut) : StreamPart :=
  { entry := entryBits handle (statusCode (o.final.getD .done)) o.final.isSome o.lcAtStep mass o.tokens.length o.bytes.length
      o.firstJ 0
    words := o.tokens.map (tokenWord mass), bytes := o.bytes }

/-! ### Parts (R228, R230) -/

/-- Streams with their entries, in ascending slot order; a stream's entries stay together. -/
abbrev Unit_ := List StreamPart

/-- Bytes of a unit before padding. -/
def unitBytes (u : Unit_) : Nat := (u.map fun p => 16 + 8 * p.words.length + p.bytes.length).sum

/-- What one part holds. -/
structure PartBody where
  units : List Unit_ := []
  notices : List (BitVec 128) := []
  deriving DecidableEq, Repr

/-- Bytes of a part, padding included. -/
def PartBody.size (p : PartBody) : Nat := roundUp (64 + (p.units.map unitBytes).sum + 16 * p.notices.length) 64

/-- Adds a unit to the last of the parts so far, latest first, or opens a new one (R230). -/
def addUnit (ps : List PartBody) (u : Unit_) : List PartBody :=
  match ps with
  | [] => [{ units := [u] }]
  | p :: r =>
    let q := { p with units := p.units ++ [u] }
    if q.size ≤ 32768 then q :: r else { units := [u] } :: p :: r

/-- Adds a notice in the same way. -/
def addNotice (ps : List PartBody) (n : BitVec 128) : List PartBody :=
  match ps with
  | [] => [{ notices := [n] }]
  | p :: r =>
    let q := { p with notices := p.notices ++ [n] }
    if q.size ≤ 32768 then q :: r else { notices := [n] } :: p :: r

/-- The parts of a step for one route: streams first, then the notices (R230). -/
def partsOf (us : List Unit_) (ns : List (BitVec 128)) : List PartBody := (ns.foldl addNotice (us.foldl addUnit [])).reverse

/-- Entries with the offsets of their bytes in the byte area. -/
def placeBytes : Nat → List StreamPart → List StreamPart
  | _, [] => []
  | off, p :: r => { p with entry := withOffset p.entry off } :: placeBytes (off + p.bytes.length) r

/-- The body of a part: header of R229 and its entries. -/
def partBody (c : ClosingStep) (route ident part : Nat) (last : Bool) (p : PartBody) : RecordBody :=
  let ss := placeBytes 0 p.units.flatten
  let toks := (ss.map fun x => x.words.length).sum
  let bytes := (ss.map fun x => x.bytes.length).sum
  { header := BitVec.ofNat 512 (c.no % 2 ^ 64 * 2 ^ 448 + c.stepEnd % 2 ^ 64 * 2 ^ 384 + c.epoch.toNat * 2 ^ 352
      + p.size % 2 ^ 32 * 2 ^ 320 + ss.length % 2 ^ 16 * 2 ^ 304 + p.notices.length % 2 ^ 16 * 2 ^ 288 + toks % 2 ^ 16 * 2 ^ 272
      + route % 2 ^ 16 * 2 ^ 256 + ident % 2 ^ 32 * 2 ^ 224 + bytes % 2 ^ 32 * 2 ^ 192 + c.shed.toNat * 2 ^ 191
      + c.trimmed.toNat * 2 ^ 190 + c.catchup.toNat * 2 ^ 189 + part % 2 ^ 16 * 2 ^ 173 + last.toNat * 2 ^ 172)
    streams := ss, notices := p.notices }

/-- A record as it goes to a ring. -/
def recOut (b : RecordBody) : RecOut := { len := (recBytes b).length, bits := ofLe (recBytes b) }

/-! ### Records of the closing step -/

/-- The stream that holds a slot. -/
def State.streamAt (s : State) (slot : Nat) : Option Stream := s.seq.streams.find? fun st => st.slot = slot

/-- Changes the stream that holds a slot. -/
def State.modStream (s : State) (slot : Nat) (g : Stream → Stream) : State :=
  { s with seq := { s.seq with streams := s.seq.streams.map fun st => if st.slot = slot then g st else st } }

/-- The request of a slot's stream. -/
def State.reqAt (s : State) (slot : Nat) : Option Request := (s.streamAt slot).bind fun st => s.req st.fn st.tag

/-- DUE(j) of R34 has passed for the first token of an entry under an LC promise that still stands. -/
def State.pastDue (s : State) (e : PendEntry) : Bool :=
  match s.reqAt e.slot with
  | some r => !r.withdrawn && eLc e.part.entry && 0 < eNtok e.part.entry && (eStatus e.part.entry = 0x00 || eStatus e.part.entry = 0x30)
      && decide (r.promise.firstDue + eJ e.part.entry * r.promise.periodNs < s.now)
  | none => false

/-- The status a token entry carries when its record is written: LATE before FAILED_OVER before RECOVERED (R55, R232, R306,
R378). -/
def State.entryStatus (s : State) (e : PendEntry) : Nat :=
  let w := e.part.entry
  if s.pastDue e then 0x22
  else if eFinal w || eNtok w = 0 || (eStatus w ≠ 0x00 && eStatus w ≠ 0x30) then eStatus w
  else match s.streamAt e.slot with
    | some st => if st.failedOver then 0x31 else eStatus w
    | none => eStatus w

/-- One entry at the writing of its record: its status; a late stream's LATE and WITHDRAWN entries, and the stream goes on as
BE (R55); marks that were reported are cleared. -/
def State.settleEntry (s : State) (e : PendEntry) : State × List PendEntry :=
  if e.notice.isSome then (s, [e]) else
  let st := s.entryStatus e
  let e1 : PendEntry := { e with part := { e.part with entry := withStatus e.part.entry st } }
  let s1 := if eNtok e.part.entry = 0 then s else s.modStream e.slot fun x => { x with failedOver := false }
  if st = 0x22 then
    match s1.reqAt e.slot with
    | some r =>
      let bits_ := entryBits (eHandle e.part.entry) 0x20 false false false 0 0 (s1.slot e.slot).generated 0
      let w : PendEntry := { e with part := { entry := bits_ } }
      ((s1.toBe r).count 0x200023 1, [e1, w])
    | none => (s1, [e1])
  else (s1, [e1])

/-- Order of a step's stream entries: ascending slot, a stream's own in their order. -/
def unitsOf (es : List PendEntry) : List Unit_ :=
  let slots := sortBy (fun a b => a ≤ b) ((es.filter fun e => e.notice.isNone).map (·.slot)).eraseDups
  slots.map fun k => (es.filter fun e => e.notice.isNone && e.slot = k).map (·.part)

/-- Sends one route's records: to its ring, or to its fabric partner (R228). -/
def State.sendRecords (s : State) (c : ClosingStep) (es : List PendEntry) (route : Nat) : State :=
  let mine := es.filter fun e => e.route = route
  let ps := partsOf (unitsOf mine) (mine.filterMap (·.notice))
  ps.zipIdx.foldl (fun s p =>
    let b := partBody c route s.fab.ident p.2 (p.2 + 1 = ps.length) p.1
    if route < 64 then s.putRecord route (recOut b)
    else match s.fab.sessions.find? fun x => 0x8000 + x.idx = route && x.state = .opened with
      | some x => s.emit (.record x.ident b)
      | none => s) s

/-- A stream whose FINAL entry is written: its slot goes at the next boundary, its request completes (R205, R326). -/
def State.endStream (s : State) (slot : Nat) : State :=
  match s.streamAt slot, s.reqAt slot with
  | some st, some r =>
    let s1 := s.modStream slot fun x => { x with freeing := true }
    s1.finish r { status := st.ending.getD .done, final := true, cancelled := r.cancelling && st.ending = some .partDone
                  bytes := r.work.resBytes }
  | _, _ => s

/-- A shadow-covered stream has an entry in the closing step that the partner has not acknowledged (R300). -/
def State.ackMissing (s : State) (c : ClosingStep) : Bool :=
  s.pair.state = .paired && !s.pair.unresponsive && s.pair.acked < c.no
    && s.step.closed.any fun e => e.notice.isNone && (s.reqAt e.slot).any fun r => r.covered = 1 && !r.mirror

/-- An entry that leaves this module: not of a partner's copy, nor of a reset function (R299, R301, R330). -/
def State.written (s : State) (e : PendEntry) : Bool :=
  e.notice.isSome && e.route < 64 || e.notice.isNone && match s.reqAt e.slot with
    | some r => !r.silent && !r.mirror
    | none => true

/-- Entries of one step become records, every route in ascending order (R217, R228). -/
def State.putEntries (s : State) (c : ClosingStep) (es : List PendEntry) : State :=
  let x := es.foldl (fun (a : State × List PendEntry) e =>
    let y := a.1.settleEntry e
    (y.1, a.2 ++ y.2)) (s, [])
  (sortBy (fun a b => a ≤ b) (x.2.map (·.route)).eraseDups).foldl (fun s r => s.sendRecords c x.2 r) x.1

/-- Entries of reflected streams that the partner keeps back until the peer confirms their step (R306). -/
def State.keepEntries (s : State) (c : ClosingStep) : State :=
  let es := s.step.closed.filter fun e => e.notice.isNone && (s.reqAt e.slot).any fun r => r.mirror && r.covered = 2 && !r.silent
  if es.isEmpty || c.no ≤ s.pair.peerWritten then s
  else { s with pair := { s.pair with keptEntries := s.pair.keptEntries ++ [(c, es)] } }

/-- STEP_BATCH_RECORD_WRITE: the records of the step that ended, every route in ascending order, then the streams and
completions that end with them (R217, R228). -/
def State.writeRecords (s : State) : State :=
  match s.step.closing with
  | none => s
  | some c =>
    if s.ackMissing c then s else
    let finals := (s.step.closed.filter fun e => e.notice.isNone && eFinal e.part.entry).map (·.slot)
    let s1 := (s.keepEntries c).putEntries c (s.step.closed.filter s.written)
    let s2 := finals.foldl State.endStream s1
    { s2 with step := { s2.step with closing := none, closed := [] }, pair := { s2.pair with written := c.no } }

def execStepBatchRecordWrite (t : Nat) (s : State) : Host.Outcome State Fault Refusal := .next (s.tick t).writeRecords

end Sys2Proof.Machine
end

