-- ==== Sys2Proof/Machine/Pair.lean ====
section
/-!
DEFINITION. Mirror pairs (R56, R221, R293..R307): forming, mirrored admissions, mirror messages, loss and takeover.
-/
namespace Sys2Proof.Machine

/-! ### Forming (R293, R294) -/

/-- The peer that entry 0xA100:0x01 names, 0 for none. -/
def State.peer (s : State) : Nat := s.entry 0xA10001

/-- The conditions of R293 that this module sees alone. -/
def State.pairReady (s : State) : Bool :=
  s.peer ≠ 0 && s.peer ≠ s.fab.ident && decide (2 ≤ s.directPorts.length) && s.timeHeld

/-- A pair can form from this state. -/
def canForm (p : PairState) : Bool := p = .forming || p = .split || p = .survivor

/-- What an offer states of the sweep store: version, ORIGIN, period in µs, and whether one is held. -/
def State.storeOf (s : State) : Nat × Nat × Nat × Bool :=
  match s.index.live.head? with
  | some v => (v.img.version, s.sweep.origin, s.periodAt s.sweep.nextNo / 1000, true)
  | none => (0, 0, 0, false)

/-- Both stream the same version on the same schedule, or neither holds a store. -/
def State.sameStore (s : State) (o : Nat × Nat × Nat × Bool) : Bool := if o.2.2.2 then s.storeOf = o else !s.storeOf.2.2.2

/-- Releases every copy of the peer's commitments, with its charges. -/
def State.freePartner (s : State) : State := (s.reqs.filter fun r => r.mirror).foldl State.release s

/-- Own commitments lose their coverage, counted when `counted`. -/
def State.uncoverAll (s : State) (counted : Bool) : State :=
  (s.reqs.filter fun r => r.covered ≠ 0 && !r.mirror).foldl (fun s r =>
    let s1 := s.modReq r.fn r.tag fun q => { q with covered := 0 }
    (if r.gen then s1.modSlot (r.promise.handle / 65536) fun e => { e with role := .unpaired } else s1).count 0xA20009 counted.toNat) s

/-- Forgets what mirroring kept. -/
def PairInfo.clear (p : PairInfo) : PairInfo :=
  { p with acceptedAt := none, dissolve := false, probing := false, answered := false, unresponsive := false
           myDigest := none, peerDigest := none, digestCells := [], results := [], resync := []
           keptEntries := [], keptWrites := [], keptDone := [], peerHeld := [] }

/-- The pair ends in a state: partner entries freed, own commitments unmirrored (R294, R305). -/
def State.unpair (s : State) (p : PairState) (counted : Bool) : State :=
  let s1 := (s.freePartner).uncoverAll counted
  ({ s1 with pair := s1.pair.clear } : State).setPair p

/-- The pair is PAIRED: mirroring starts afresh. -/
def State.pairUp (s : State) : State :=
  ({ s with pair := { s.pair.clear with lastRx := s.now, acked := s.step.no, written := s.step.no, peerWritten := s.step.no } } : State).setPair
    .paired

/-- What a boundary does for the pair: a dissolution, the offer of the lower module, the start of PAIRED (R293, R294;
log 61). -/
def State.pairStep (s : State) : State :=
  if s.pair.dissolve then s.unpair (if s.peer = 0 then .unpaired else .forming) false
  else if !canForm s.pair.state || !s.pairReady then s
  else match s.pair.acceptedAt with
    | some a => if a + 100000 ≤ s.now then s.pairUp else s
    | none =>
      if s.fab.ident < s.peer && s.partner s.peer then
        let o := s.storeOf
        s.emit (.fabric s.peer 0x40 [s.entry 0x101002, o.1, o.2.1, o.2.2.1, o.2.2.2.toNat]
          (offerWire (s.entry 0x101002) o.1 o.2.1 o.2.2.1 o.2.2.2))
      else s

/-- An acceptance was sent or received. -/
def State.pairAgreed (s : State) : State :=
  ({ s with pair := { s.pair with acceptedAt := some s.now } } : State).setPair .forming

/-- PAIR_OFFER at the higher module: accepted when every condition holds. -/
def State.pairOffered (s : State) (id profile : Nat) (o : Nat × Nat × Nat × Bool) : State :=
  if id = s.peer && id < s.fab.ident && canForm s.pair.state && s.pairReady && profile = s.entry 0x101002 && s.sameStore o then
    s.pairAgreed.emit (.fabric id 0x41 [] acceptWire)
  else s

def execPairOffer (t : Nat) (hdr : BitVec 256) (profile : Nat) (version : Nat) (origin : Time) (period : Nat) (held : Bool)
    (s : State) : Host.Outcome State Fault Refusal :=
  .next ((s.tick t).receive 0x40 1 hdr fun x s => s.pairOffered x.ident profile (version, origin, period, held))

def execPairAccept (t : Nat) (hdr : BitVec 256) (s : State) : Host.Outcome State Fault Refusal :=
  .next ((s.tick t).receive 0x41 1 hdr fun x s =>
    if x.ident = s.peer && s.fab.ident < s.peer && canForm s.pair.state && s.pairReady then s.pairAgreed else s)

/-! ### Mirrored admissions (R295, R296, R299) -/

/-- Function under which the peer's request is kept here. -/
def mirrorFn (f : Nat) : Nat := 2000 + f

/-- The request that a PAIR_ADMIT describes. -/
def mirrorRequest (b : PairAdmitBody) : Request :=
  let hand := decide (1000 ≤ b.fn)
  { fn := mirrorFn b.fn, tag := if hand then hoTag b.desc else dTag b.desc, op := if hand then 0x06 else dOp b.desc
    desc := b.desc, ring := 0, index := 0, lc := true, payload := b.payload, mirror := true
    covered := if b.reflect then 2 else 1, started := b.reflect, returnId := if hand then hoReturn b.desc else 0
    promise := { admitTime := b.admitT, handle := b.handle, lc := true } }

/-- The request runs a model of this module. -/
def generates (r : Request) : Bool := r.op = 0x06 || (r.op = 0x01 && kTargets r.payload.rank = 0)

/-- Digest of the image that a mirrored request would run on here. -/
def State.digestHere (s : State) (r : Request) : Nat :=
  if generates r then (s.modelId (gModel r.payload.gen) 1).elim 0 (·.digest)
  else if r.op ∈ [0x01, 0x02, 0x04, 0x05] then s.index.live.head?.elim 0 (·.digest)
  else 0

/-- This module's own admission of the peer's commitment: it charges what the primary charges (R56, R296). A shadow gather reads no
row before a takeover. -/
def State.admitMirror (s : State) (r : Request) (b : PairAdmitBody) : State :=
  let x : Fetched := { desc := r.desc }
  if r.op = 0x01 then s.admitAsk r x r.payload
  else if r.op = 0x02 then s.admitRetrieve r x r.payload
  else if r.op = 0x03 then s.admitEmbed r x r.payload
  else if r.op = 0x04 then s.admitRerank r x r.payload
  else if r.op = 0x05 then s.admitPack r x r.payload
  else if r.op = 0x06 then s.admitGenerate r r.payload
  else match b.gather, b.update, b.copy with
    | some g, _, _ =>
      (match s.gatherDesc g.blk with
        | some d => if b.reflect then s.admitGather r g else (s.gatherAdm r g d).close s 1
        | none => s)
    | _, some u, _ => s.admitUpdate r u
    | _, _, some c => s.admitCopy r c.1 c.2
    | _, _, _ => s

/-- The prompt of a mirrored hand-off is there at once. -/
def State.mirrorPrompt (s : State) (b : PairAdmitBody) (r : Request) : State :=
  match s.req r.fn r.tag with
  | some q => if 1000 ≤ b.fn then s.setPrompt q (b.payload.prompt.map fun w => bits w.toNat 17 0) else s
  | none => s

/-- PAIR_ADMIT: charged on the primary's ADMIT_TIME, and answered (R296, R355). -/
def State.pairAdmitted (s : State) (id : Nat) (b : PairAdmitBody) : State :=
  let r := mirrorRequest b
  let answer (s : State) (st : Status) : State := s.emit (.fabric id 0x43 [r.tag] (pairAnsWire r.tag (statusCode st)))
  if s.mod.op ≠ .serving || s.pair.state ≠ .paired || id ≠ s.peer then answer s .stateConflict
  else if s.digestHere r ≠ b.digest || (s.req r.fn r.tag).isSome then answer s .refusedCapacity
  else
    let s1 := s.admitMirror r b
    if (s1.req r.fn r.tag).isSome then answer (s1.mirrorPrompt b r) .done else answer s .refusedCapacity

def execPairAdmit (t : Nat) (hdr : BitVec 256) (b : PairAdmitBody) (s : State) : Host.Outcome State Fault Refusal :=
  .next ((s.tick t).receive 0x42 1 hdr fun x s => s.pairAdmitted x.ident b)

/-- An admission whose round ends well goes on as any accepted one. -/
def State.pairAccepted (s : State) (r : Request) : State :=
  (((s.acceptRound r).startGather r.fn r.tag).startUpdate r.fn r.tag).startRerank r.fn r.tag

/-- PAIR_ANS. -/
def State.pairAnswered (s : State) (id tag : Nat) (ok : Bool) : State :=
  if id ≠ s.peer then s else
  match s.reqs.find? fun r => r.tag = tag && r.round.any fun d => !d.split with
  | none => s
  | some r => if ok then s.pairAccepted r else s.refuseRound r

def execPairAns (t : Nat) (hdr : BitVec 256) (tag : Nat) (ok : Bool) (s : State) : Host.Outcome State Fault Refusal :=
  .next ((s.tick t).receive 0x43 1 hdr fun x s => s.pairAnswered x.ident tag ok)

/-! ### Takeover (R56, R304, R306, R307) -/

/-- Where the entries of a request taken over go: the function that serves its host, or the session of its RETURN_ID. -/
def State.outRoute (s : State) (r : Request) : Nat :=
  if r.returnId ≠ 0 then (s.session r.returnId).elim 0xFFFF fun x => 0x8000 + x.idx else s.outFn r.fn

/-- A completion entry here is set aside for a request taken over. -/
def State.reserveCpl (s : State) (f : Nat) : State := s.modFn f fun fn => { fn with cpl := { fn.cpl with reserved := fn.cpl.reserved + 1 } }

/-- One partner entry becomes this module's own: a stream as primary, marked FAILED_OVER; a shadow retrieval or hand-off is
withdrawn (R56). A shadow gather, and any update, begins here (log 62). -/
def State.takeOne (s : State) (r : Request) : State :=
  let slot := r.promise.handle / 65536
  let running := r.gen && (s.slot slot).prompt ≠ 0
  let route := s.outRoute r
  let q := { r with
    mirror := false, covered := 0, started := true
    work := { r.work with stage := if running then 13 else r.work.stage } }
  let s1 := (s.modReq r.fn r.tag fun _ => q).reserveCpl (s.outFn r.fn)
  let s2 := if !r.gen then s1 else
    (s1.modSlot slot fun e => { e with role := .primary, route := route }).modStream slot fun st => { st with failedOver := true }
  if r.covered = 1 && !running && (r.op = 0x01 || r.op = 0x02) then s2.withdraw q
  else (if r.covered = 1 then s2.startGather q.fn q.tag else s2).startUpdate q.fn q.tag

/-- The entries of a slot that wait for a record go to a route. -/
def reroute (slots : List (Nat × Nat)) (e : PendEntry) : PendEntry :=
  if e.notice.isSome then e else match getKey slots e.slot with
    | some route => { e with route := route }
    | none => e

/-- TAKEOVER to every link neighbour and every open session (R306). -/
def State.sendTakeover (s : State) (lost : Nat) : State :=
  let ids := (s.fab.ports.filterMap fun p => if p.inService then some p.neighbour else none)
    ++ s.fab.sessions.filterMap fun x => if x.state = .opened then some x.ident else none
  ids.eraseDups.foldl (fun s id => s.emit (.fabric id 0x47 [lost, min lost s.fab.ident, s.fab.ident]
    (takeoverWire lost (min lost s.fab.ident) s.fab.ident))) s

/-- The survivor writes what it kept back of steps that the lost module did not confirm. -/
def State.writeKept (s : State) (slots : List (Nat × Nat)) : State :=
  let s1 := s.pair.keptEntries.foldl (fun s k => s.putEntries k.1 (k.2.map (reroute slots))) s
  let s2 : State := { s1 with out := s1.out ++ s.pair.keptWrites.map (·.2) }
  s.pair.keptDone.foldl (fun s k =>
    let f := s.outFn k.2.1
    (s.reserveCpl f).putCpl f (k.2.2 + (s.fn f).cpl.phase.toNat * 2 ^ 431) 0) s2

/-- The peer is lost: this module answers for both and takes over its commitments; as pool home it applies what waited here of closed
windows (R267). -/
def State.takeOver (s : State) : State :=
  let lost := s.peer
  let mine := s.reqs.filter fun r => r.mirror
  let slots := (mine.filter (·.gen)).map fun r => (r.promise.handle / 65536, s.outRoute r)
  let ends := s.now + (if mine.any fun r => r.covered = 1 then 100000 else 45000)
  let s0 := (s.record 0x13 s.sysLevel 8 9 0 0 .failedOver lost) |> fun x =>
    if s.faultRuns then (x.count 0x701003 1).record 0x14 s.sysLevel 0 9 0 0 .done lost else x
  let s1 := ((s0.sendTakeover lost).uncoverAll false).count 0xA2000A 1
  let s2 := mine.foldl State.takeOne s1
  let s3 : State := { s2 with
    fab := { s2.fab with alsoId := (s2.fab.alsoId ++ [lost]).eraseDups }
    faults := { s2.faults with recoveryEnds := max s2.faults.recoveryEnds ends }
    step := { s2.step with closed := s2.step.closed.map (reroute slots), pend := s2.step.pend.map (reroute slots) } }
  let s4 := (s3.writeKept slots).catchUp s3.pool.closedTo (fun w => (w + 3) * 50000) fun a b => s3.homeOf a b = lost
  ({ s4 with pair := { s4.pair.clear with unresponsive := true } } : State).setPair .survivor

/-- The peer is unresponsive, hence lost (R304). -/
def State.peerLost (s : State) : State := if s.pair.state = .paired then s.takeOver else s

/-- No PAIR_ANS within 3 µs (R296). -/
def State.pairLate (s : State) (f tag : Nat) : State :=
  match s.req f tag with
  | none => s
  | some r => match r.round with
    | some d => if !d.split && d.since + 3000 ≤ s.now then (s.refuseRound r).peerLost else s
    | none => s

def execPairAnsTimeout (t f tag : Nat) (s : State) : Host.Outcome State Fault Refusal := .next ((s.tick t).pairLate f tag)

/-! ### MIRROR_STEP and MIRROR_ACK (R221, R299..R303) -/

/-! #### The output path over tokens (R188..R193) -/

/-- Runs the output path over tokens until a stop string fires: path, tokens run (R188..R192). -/
def runOut (v : VocabImage) (stops : List (List Byte)) (mode : Nat) (emit : Bool) : OutPath → Nat → List TokenOut → OutPath × Nat
  | o, n, [] => (o, n)
  | o, n, t :: rest =>
    let o1 := o.token v stops mode emit t.token
    if o1.fired then (o1, n + 1) else runOut v stops mode emit o1 (n + 1) rest

/-- The output path of a stream over tokens: the path at their end or where a stop string fires, tokens run. -/
def State.pathOver (s : State) (st : Stream) (r : Request) (toks : List TokenOut) : OutPath × Nat :=
  let opts := r.payload.opts
  let start : OutPath := { held := st.held, utf := st.utf }
  match (s.model (s.slot st.slot).model).bind fun m => s.vocabOf r m.img.vocab with
  | some v => runOut v.img (stopsOf opts r.payload.stops) (oOutMode opts) (oEmitStop opts) start 0 toks
  | none => (start, toks.length)

/-- A tree from its (parent, token) pairs in breadth-first order. -/
def treeOf (ps : List (Nat × Nat)) : List TreeNode :=
  ps.foldl (fun t p => t ++ [{ parent := p.1, token := p.2, level := if t.isEmpty then 1 else ((t[p.1]?).elim 1 (·.level)) + 1 }]) []

/-- The primary's committed state replaces that of a partner entry: its slot, model, route and offsets stay this module's. -/
def State.applyState (s : State) (r : Request) (m : MirrorEntry) (role : SeqRole) : State :=
  let own := s.slot m.slot
  let e := SeqEntry.decode role m.entry.toNat
  let s1 := s.modSlot m.slot fun _ => { e with model := r.model, route := own.route, glist := own.glist, params := own.params, aut := m.aut }
  s1.modStream m.slot fun st => { st with toks := m.tokens, held := m.held, utf := m.utf, out := none }

/-- The output path of a stream after its tokens up to a count, from its beginning (R203). -/
def State.pathAt (s : State) (st : Stream) (r : Request) (n : Nat) : OutPath :=
  (s.pathOver { st with held := [], utf := [] } r ((st.toks.take n).map fun t => ⟨t, false, false, 0, 0⟩)).1

/-- An entry of a stream without the tokens past a count of generated ones; none when nothing of it stays (R221). -/
def State.cutEntry (s : State) (st : Stream) (r : Request) (g : Nat) (p : PendEntry) : Option PendEntry :=
  let w := p.part.entry
  if p.notice.isSome || p.slot ≠ st.slot || eJ w + eNtok w ≤ g then some p
  else if g ≤ eJ w then none
  else
    let k := g - eJ w
    let bs := (s.pathAt st r g).released.drop (s.pathAt st r (eJ w)).released.length
    some { p with part := ⟨entryBits (eHandle w) (statusCode .done) false (eLc w) (gMass r.payload.gen) k bs.length (eJ w) 0,
                           p.part.words.take k, bs⟩ }

/-- A reflected stream: the tree of the step, and no more tokens than the primary committed; what the tokens past them had changed
goes back (R221). -/
def State.applyTree (s : State) (m : MirrorEntry) : State :=
  let g := (SeqEntry.decode .reflectPartner m.entry.toNat).generated
  let s0 := s.modStream m.slot fun st => { st with tree := treeOf m.tree }
  match s0.streamAt m.slot, s0.reqAt m.slot with
  | some st, some r =>
    if (s.slot m.slot).generated ≤ g then s0 else
    let excess := (s.slot m.slot).generated - g
    let toks := st.toks.take (st.toks.length - excess)
    let o := s0.pathAt st r toks.length
    let cut (l : List PendEntry) : List PendEntry := l.filterMap (s0.cutEntry st r g)
    let s1 := s0.modSlot m.slot fun e => { e with
      generated := g, ctx := e.ctx - excess, last := toks.getLastD (st.promptToks.getLastD 0), aut := m.aut }
    let s2 := s1.modStream m.slot fun st => { st with toks := toks, held := o.held, utf := o.utf, ending := none }
    { s2 with
      step := { s2.step with closed := cut s2.step.closed }
      pair := { s2.pair with keptEntries := s2.pair.keptEntries.map fun k => (k.1, cut k.2) } }
  | _, _ => s0

/-- One entry of a MIRROR_STEP. -/
def State.applyEntry (s : State) (m : MirrorEntry) : State :=
  match s.reqAt m.slot with
  | none => s
  | some r =>
    if !r.mirror then s
    else if r.covered = 1 then s.applyState r m .shadowPartner
    else if s.pair.resync.contains m.slot then
      let s1 := (s.applyState r m .reflectPartner).applyTree m
      { s1 with pair := { s1.pair with resync := s1.pair.resync.filter (· ≠ m.slot) } }
    else s.applyTree m

/-- Streams of the peer that its message no longer names have ended there. -/
def State.dropEnded (s : State) (slots : List Nat) : State :=
  (s.reqs.filter fun r => r.mirror && r.gen && !slots.contains (r.promise.handle / 65536)).foldl State.release s

/-- Digests of one step that differ: counted, the cells that ran the streams are suspects, and every reflected stream's state
goes over anew (R303). -/
def State.compareDigests (s : State) : State :=
  match s.pair.myDigest, s.pair.peerDigest with
  | some a, some b =>
    if a.1 ≠ b.1 then s
    else
      let s0 : State := { s with pair := { s.pair with peerDigest := none } }
      if a.2 = b.2 then s0 else
      let rs := s.reqs.filter fun r => r.covered = 2 && r.gen
      let slots := rs.map fun r => r.promise.handle / 65536
      let s1 := (s0.count 0xA20008 1)
      let s2 : State := { s1 with
        pair := { s1.pair with resync := (s1.pair.resync ++ slots).eraseDups }
        cells := { s1.cells with digestSuspects := s1.cells.digestSuspects ++ s.pair.digestCells } }
      (rs.filter (·.mirror)).foldl (fun s r => s.modSlot (r.promise.handle / 65536) fun e => { e with role := .shadowPartner }) s2
  | _, _ => s

/-- What the peer has confirmed is kept no longer (R302). -/
def State.confirmed (s : State) (n : Nat) : State :=
  { s with pair := { s.pair with
      peerWritten := n, keptEntries := s.pair.keptEntries.filter fun k => n < k.1.no
      keptWrites := s.pair.keptWrites.filter (fun k => n < k.1), keptDone := s.pair.keptDone.filter fun k => n < k.1 } }

/-- MIRROR_STEP from the pair peer. -/
def State.mirrorStepped (s : State) (id : Nat) (b : MirrorStepBody) : State :=
  if s.pair.state ≠ .paired || id ≠ s.peer then s else
  let s1 := (b.entries.foldl State.applyEntry ((s.mirrorSwitch b.switches).confirmed b.written)).dropEnded (b.entries.map (·.slot))
  let held := b.entries.filter fun m =>
    (SeqEntry.decode .unpaired m.entry.toNat).state ≠ .free && (s1.reqAt m.slot).isNone
  let s2 : State := { s1 with pair := { s1.pair with peerDigest := some (b.step, b.digest), peerHeld := held.map (·.slot) } }
  s2.compareDigests.emit (.fabric id 0x45 [b.step] (mirrorAckWire b.step))

def execMirrorStep (t : Nat) (hdr : BitVec 256) (b : MirrorStepBody) (s : State) : Host.Outcome State Fault Refusal :=
  .next ((s.tick t).receive 0x44 1 hdr fun x s => s.mirrorStepped x.ident b)

def execMirrorAck (t : Nat) (hdr : BitVec 256) (step : Nat) (s : State) : Host.Outcome State Fault Refusal :=
  .next ((s.tick t).receive 0x45 1 hdr fun x s =>
    if x.ident = s.peer then { s with pair := { s.pair with acked := max s.pair.acked step } } else s)

/-- No MIRROR_ACK by 8 µs after the end of a step (R300). -/
def execMirrorAckTimeout (t step : Nat) (s : State) : Host.Outcome State Fault Refusal :=
  let s1 := s.tick t
  .next (if s1.pair.acked < step && (step + 1) * 50000 + 8000 ≤ s1.now then s1.peerLost else s1)

/-! ### Heartbeats, loss, split (R304, R305) -/

/-- A heartbeat on every direct port. -/
def execHeartbeatSend (t : Nat) (s : State) : Host.Outcome State Fault Refusal :=
  let s1 := s.tick t
  .next (s1.directPorts.foldl (fun s p => s.emit (.fabric s.peer 0x46 [p] (timeWire s.now))) s1)

/-- HEARTBEAT needs no session; its send time counts for the path bound of the session with the peer; a probe is answered, an answer to
a probe is noted (R284, R287, R304). -/
def State.heartbeat (s : State) (h : BitVec 256) (sent : Time) (probe answer : Bool) : State :=
  if !s.addressed h || !hdrOk 0x46 1 h || hSrc h ≠ s.peer then s.discard else
  let s1 := (s.heard (hSrc h)).pathSample (hSrc h) sent
  let s2 : State := { s1 with pair := { s1.pair with answered := s1.pair.answered || (answer && s1.pair.probing) } }
  if probe then s2.emit (.fabric (hSrc h) 0x46 [] (timeWire s2.now)) else s2

def execHeartbeat (t : Nat) (hdr : BitVec 256) (sent : Time) (probe answer : Bool) (s : State) :
    Host.Outcome State Fault Refusal :=
  .next ((s.tick t).heartbeat hdr sent probe answer)

/-- 8 µs without a frame of the peer: lost while a direct port is in service; else probes leave through two other ports. -/
def State.peerSilent (s : State) : State :=
  if s.pair.state ≠ .paired || s.pair.probing || s.now < s.pair.lastRx + 8000 then s
  else if !s.directPorts.isEmpty then s.peerLost
  else
    let ports := ((List.range 16).filter fun p => (s.port p).inService).take 2
    let s1 := ports.foldl (fun s p => s.emit (.fabric s.peer 0x46 [p] (timeWire s.now))) s
    { s1 with pair := { s1.pair with probing := true, probeAt := s1.now, answered := false } }

def execPeerSilenceTimeout (t : Nat) (s : State) : Host.Outcome State Fault Refusal := .next (s.tick t).peerSilent

/-- The probes are answered, which means SPLIT, or not, which means the peer is lost. -/
def State.probed (s : State) : State :=
  if s.pair.state ≠ .paired || !s.pair.probing then s
  else if s.pair.answered then s.unpair .split true
  else if s.pair.probeAt + 12000 ≤ s.now then s.peerLost
  else s

def execProbeTimeout (t : Nat) (s : State) : Host.Outcome State Fault Refusal := .next (s.tick t).probed

/-- The slot of a request is free at once. -/
def State.freeSlotOf (s : State) (r : Request) : State := if r.gen then s.freeSlot (r.promise.handle / 65536) else s

/-- A module that is fenced by a TAKEOVER of its own identifier stops serving the covered commitments at once (R304). -/
def State.fencedOut (s : State) : State :=
  let s1 := (s.reqs.filter fun r => r.covered ≠ 0).foldl (fun s r => (s.freeSlotOf r).release r) s
  ({ s1 with pair := s1.pair.clear } : State).setPair .forming

/-- TAKEOVER is accepted from any source (R287). -/
def State.takenOver (s : State) (h : BitVec 256) (lost survivor : Nat) : State :=
  if !s.addressed h || !hdrOk 0x47 1 h then s.discard else
  let s1 := (s.heard (hSrc h)).memberKept lost survivor
  if lost = s.fab.ident && survivor ≠ s.fab.ident && survivor = s.peer then s1.fencedOut else s1

def execTakeover (t : Nat) (hdr : BitVec 256) (lost survivor : Nat) (s : State) : Host.Outcome State Fault Refusal :=
  .next ((s.tick t).takenOver hdr lost survivor)

/-- What is held for a shadow commitment without a stream, or for a mirrored update, goes once a loss of the primary before its due
time would have been detected, 20 µs after it (R56, R304; log 63). -/
def State.freeDue (s : State) : State :=
  (s.reqs.filter fun r => r.mirror && !r.gen && decide (r.promise.firstDue + 20000 < s.now)
    && (!r.started || r.update.isSome)).foldl State.release s

end Sys2Proof.Machine
end

