-- ==== Sys2Proof/Machine/Steps.lean ====
section
/-!
DEFINITION. The base step: what a boundary applies and in which order (R213), trees and masks (R199, R200, R218), the work list
and slices (R214, R215), verification and the output path (R188..R193, R201, R220..R223, R227), drafts (R219).
-/
namespace Sys2Proof.Machine

/-! ### Streams -/

/-- A stream's entry runs as BE: admitted so, or withdrawn. -/
def SeqEntry.isBe (e : SeqEntry) : Bool := !e.lc || e.wdrawn

/-- Constraint entries in force for a request (R195). -/
def State.entriesOf (s : State) (r : Request) : List (BitVec 576) :=
  match s.clistOf r with
  | some c => c.img.entries.take (clCount c.img.header)
  | none => []

/-- The history that masks see after some tokens (R196). -/
def maskHistory (r : Request) (st : Stream) (toks : List Nat) : List Nat := historyOf (oSeed r.payload.opts) st.promptToks toks

/-- Tokens that end a stream (R211, R227). -/
def endsOf (m : ModelImage) (r : Request) : List Nat :=
  ((m.endTokens.take m.endCount).map fun t => bits t.toNat 17 0) ++ (gStopToks r.payload.gen)

/-- A partner's copy in shadow mode runs no slice (R300). -/
def SeqEntry.runs (e : SeqEntry) : Bool := e.role ≠ .shadowPartner

/-- Streams in ascending slot order. -/
def State.bySlot (s : State) : List Stream := sortBy (fun a b => a.slot ≤ b.slot) s.seq.streams

/-- Streams that have not ended. -/
def State.liveStreams (s : State) : List Stream := s.bySlot.filter fun st => st.ending.isNone

/-! ### Item 1: the outcome of the ended step -/

/-- The item of a stream that the ended step ran in a group. -/
def State.ranItem (s : State) (st : Stream) (group : Nat) : Option WorkItem :=
  s.step.work.find? fun w => w.group = group && w.slot = st.slot && w.fn = st.fn && w.tag = st.tag

/-- Prefill of the ended step, and the place in the model step (R207, R212, R214): a stream whose item the step's work list did not
hold stands where it stood. -/
def State.advance (s : State) (st : Stream) : State :=
  let e := s.slot st.slot
  if !e.runs || st.ending.isSome then s
  else match e.state with
    | .prefill =>
      let n := e.prompt - 1
      match s.ranItem st (if e.isBe then 4 else 2) with
      | some w =>
        let done := min n (e.pfDone + w.amount)
        s.modSlot st.slot fun e => { e with pfDone := done, ctx := done }
      | none => s
    | .decode =>
      if st.out.isSome then s.modSlot st.slot fun e => { e with phase := 0 }
      else if e.phase + 1 < e.steps && (!e.isBe || e.phase ≠ 0 || (s.ranItem st 3).isSome) then
        s.modSlot st.slot fun e => { e with phase := e.phase + 1 }
      else s
    | _ => s

/-- A stream's accepted tokens become committed; its entry goes into the record of the ended step (R202, R220), marked
RECOVERED when a slice of the stream was re-executed (R378). -/
def State.commit (s : State) (st : Stream) : State :=
  match st.out, s.reqAt st.slot with
  | some o, some r =>
    let toks := st.toks ++ o.tokens.map (·.token)
    let es := s.entriesOf r
    let aut := if es.isEmpty then 0 else autState es (maskHistory r st toks)
    let e := s.slot st.slot
    let s1 := s.modSlot st.slot fun e => { e with
      generated := e.generated + o.tokens.length, ctx := e.ctx + o.tokens.length
      last := (o.tokens.getLast?.elim e.last (·.token)), aut := if o.tokens.isEmpty then e.aut else aut }
    let s2 := s1.modStream st.slot fun x => { x with
      toks := toks, out := none, unread := none, ending := o.final, recovered := x.recovered && o.tokens.isEmpty }
    if o.tokens.isEmpty && o.final.isNone then s2
    else
      let part := tokenPart r.promise.handle (gMass r.payload.gen) o
      let again := st.recovered && !o.tokens.isEmpty && o.final.isNone
      let p : PendEntry := ⟨e.route, st.slot, if again then { part with entry := withStatus part.entry 0x30 } else part, none⟩
      { s2 with step := { s2.step with closed := s2.step.closed ++ [p] } }
  | _, _ => s.modStream st.slot fun x => { x with out := none }

/-- Item 1: the entries of the ended step are set aside for its record, slots whose FINAL record is out go (R205, R213). -/
def State.endStep (s : State) : State :=
  let s1 := (s.seq.streams.filter (·.freeing)).foldl (fun s st => s.freeSlot st.slot) s
  let s2 := s1.bySlot.foldl State.advance s1
  let s3 : State := { s2 with step := { s2.step with closed := [] } }
  let s4 := s3.bySlot.foldl State.commit s3
  let own := s.step.pend
  let closed := s4.step.closed ++ own
  { s4 with step := { s4.step with
      closed := closed, pend := []
      closing := if closed.isEmpty then none
        else some ⟨s.step.no, (s.step.no + 1) * 50000, s.adm.epoch, s.step.shed, s.step.trimmed, s.step.catchup⟩ } }

/-! ### Item 2: CANCELs, lost streams -/

/-- A stream ends at a boundary: what its output path holds is released with its FINAL entry in the record of the step that
begins (R28, R109, R190, R384). -/
def State.cutStream (s : State) (r : Request) (st : Stream) (status : Status) : State :=
  let e := s.slot st.slot
  let o := OutPath.finish { held := st.held, utf := st.utf } (oOutMode r.payload.opts)
  let w := entryBits r.promise.handle (statusCode status) true (r.lc && !r.withdrawn) (gMass r.payload.gen) 0 o.released.length
    e.generated 0
  ((s.modStream st.slot fun x => { x with ending := some status, held := [], utf := [] }).pendEntry e.route st.slot
    ⟨w, [], o.released⟩).count 0x401003 o.repl

/-- Before a lost request ends: the loss of a granule is counted (R384, R396), a lost stream of a split model is withdrawn
(R109). -/
def State.countLost (s : State) (r : Request) : State :=
  if r.lostBy = 1 then s.count 0x701008 (!r.mirror).toNat
  else if r.lostBy = 2 && r.lc && !r.withdrawn && r.gen then s.withdraw r
  else s

/-- A cancelled COPY may be in flight: it runs to its end with its request gone (R95). -/
def State.leaveCopy (s : State) (r : Request) : State :=
  if r.copy.isNone then s else
  { s with tiers := { s.tiers with inFlight := (s.tiers.inFlight.filter fun q => !(q.fn = r.fn && q.tag = r.tag)) ++ [r] } }

/-- One request at item 2. -/
def State.cutRequest (s : State) (k : Nat × Nat) : State :=
  match s.req k.1 k.2 with
  | none => s
  | some r =>
    let stream := s.seq.streams.find? fun st => st.fn = r.fn && st.tag = r.tag
    let inTable := r.gen && (r.op = 0x06 || r.work.stage = 13)
    match stream, inTable with
    | some st, true =>
      if st.ending.isSome then s
      else if r.silent then s.release r
      else if r.lostBy = 1 && r.covered ≠ 0 && s.pair.state = .paired then s.release r
      else if r.lostBy ≠ 0 then (s.countLost r).cutStream r st .internalFault
      else s.cutStream r st .partDone
    | _, _ =>
      if r.lostBy ≠ 0 && r.mirror then s.release r
      else if r.lostBy ≠ 0 then (s.countLost r).finish r { status := .internalFault, final := true }
      else if r.op = 0x10 || r.op = 0x30 then s.leaveCopy r |>.finishCancelled r
      else s

/-- Item 2 of a boundary (R28, R213). -/
def State.cuts (s : State) : State :=
  (((s.reqs.filter fun r => (r.cancelling || r.lostBy ≠ 0) && r.round.isNone)).map fun r => (r.fn, r.tag)).foldl State.cutRequest s

/-! ### Item 3: re-evaluation (R48, R52..R54) -/

/-- A cadence-following ledger's LC load exceeds r × its capacity (R48). -/
def State.dimOver (s : State) : Bool :=
  let exceeds (l : Ledger) : Bool := !fle (s.load l (stepOf s.now)) (s.rawCap l * s.scale.1, s.scale.2)
  s.power.proj ≠ 0 && (exceeds .handshakes || exceeds .text)

/-- The cadence that this boundary scales by: that of the last window in deep dimming; where no region works in that window, the
one taken before stays (log 185). -/
def State.project (s : State) : State :=
  let c := if !s.power.deepDim then 0 else if s.lowCadence = 0 then s.power.proj else s.lowCadence
  { s with power := { s.power with proj := c, dimLow := c } }

/-- Item 3: under a new epoch, the latest LC commitments are withdrawn until the conditions hold. -/
def State.reevaluate (s : State) : State :=
  let s0 := s.project
  if s.adm.reeval || s0.dimOver then
    let s1 : State := { s0 with adm := { s.adm with epoch := s.adm.epoch + 1 } }
    let s2 := s1.withdrawUntil State.admissionOk s1.reqs.length
    let kept := s1.admissionOk || s1.latest.isNone
    { s2 with adm := { s2.adm with reeval := false, refuseLc := false, withdrewAt := if kept then s2.adm.withdrewAt else some s2.now } }
  else s0

/-- Share settings take effect for the ledgers; a model without LC streams returns to n_be (R42, R99). -/
def State.settleShares (s : State) : State :=
  { s with
    adm := { s.adm with bSweepTbl := s.adm.bSweep, bGen := s.entry 0x601002 }
    img := { s.img with models := s.img.models.map fun m => if (s.lcOf m.slot).isEmpty then { m with nLc := 0 } else m } }

/-! ### Items 6 and 7: entry states, trees -/

/-- An LC stream of a model decodes. -/
def State.lcRuns (s : State) (slot : Nat) : Bool :=
  s.seq.streams.any fun st => let e := s.slot st.slot
    e.model = slot && !e.isBe && e.state = .decode && st.ending.isNone

/-- n that the BE streams of a model run with: that of a running LC stream, else n_be (R42). -/
def State.beSteps (s : State) (m : ModelRes) (own : Nat) : Nat :=
  match s.seq.streams.find? fun st =>
      let e := s.slot st.slot
      e.model = m.slot && !e.isBe && e.state = .decode && st.ending.isNone with
  | some st => (s.slot st.slot).steps
  | none => if m.img.split.isEmpty then s.nBe m else own

/-- Item 6 for one stream (R207); an admission that still waits for its round has no stream yet (R108, R296). -/
def State.entryState (s : State) (st : Stream) : State :=
  let e := s.slot st.slot
  if st.ending.isSome || (s.reqAt st.slot).any (fun r => r.round.isSome) then s
  else if (e.state = .reserved && 1 < e.prompt) then s.modSlot st.slot fun e => { e with state := .prefill }
  else if (e.state = .reserved && e.prompt = 1) || (e.state = .prefill && e.pfDone + 1 = e.prompt) then
    let aut := match s.reqAt st.slot with
      | some r => if (s.entriesOf r).isEmpty then 0 else autState (s.entriesOf r) (maskHistory r st st.toks)
      | none => 0
    s.modSlot st.slot fun e => { e with
      state := .decode, last := st.promptToks.getLastD 0, ctx := e.prompt - 1, phase := 0, aut := aut }
  else s

/-- Steps of the BE streams of each model: those of a running LC stream from the step at which it begins, n_be again from the
stream's own next model step (R42). -/
def State.settleSteps (s : State) (st : Stream) : State :=
  let e := s.slot st.slot
  match s.model e.model with
  | some m =>
    if e.isBe && e.state = .decode && (e.phase = 0 || s.lcRuns m.slot) then
      let n := s.beSteps m e.steps
      s.modSlot st.slot fun e => { e with steps := n, phase := min e.phase (n - 1) }
    else s
  | none => s

/-- Generation bytes of the base step that LC charges leave free (R41, R42). -/
def State.genFree (s : State) : Nat :=
  let l := s.load .genBytes (stepOf s.now)
  s.rawCap .genBytes - ceilDiv l.1 l.2

/-- The stream reads as BE in the step: a decoding BE stream of a model that one module holds (log 86). -/
def State.readsBe (s : State) (st : Stream) : Bool :=
  let e := s.slot st.slot
  e.isBe && e.state = .decode && st.ending.isNone && e.runs && (s.model e.model).any fun m => m.img.split.isEmpty

/-- Bytes of a BE model step: the stream's own KV, and the weights of a streamed model that no LC stream runs, which the first
of its streams reads (R42). -/
def State.beBytes (s : State) (st : Stream) : Nat :=
  let e := s.slot st.slot
  match s.model e.model with
  | some m =>
    let runsLc := s.lcRuns m.slot
    let first := !(s.seq.streams.any fun x => s.readsBe x && (s.slot x.slot).model = m.slot && x.slot < st.slot)
    m.img.kvTok * e.ctx + (if m.img.resident || runsLc || !first then 0 else m.wStep)
  | none => 0

/-- BE model steps read, by ascending slot, in the bytes left free; one whose reads do not fit goes on in the next base step
(R42). -/
def State.readBe (s : State) : State :=
  ((s.bySlot.filter s.readsBe).foldl (fun (a : State × Nat) st =>
    let need := st.unread.getD (s.beBytes st)
    (a.1.modStream st.slot fun x => { x with unread := some (need - a.2) }, a.2 - need)) (s, s.genFree)).1

/-- DEPTH and NODES in force (R218). -/
def State.treeLimits (s : State) (r : Request) (m : ModelRes) (e : SeqEntry) : Nat × Nat :=
  let l := r.bound + r.maxNew
  let can := s.entry 0x420001 ≠ 0 && m.img.draftId ≠ 0 && m.img.resident
  let d := min (min (min (gDepth r.payload.gen) m.img.specDepthMax) (s.entry 0x420002)) (min (r.maxNew - e.generated) (l - e.ctx - 1))
  (if can then max 1 d else 1, min (gNodes r.payload.gen) (s.entry 0x420003))

/-- The tree of one stream for the step that begins, before masks and late work: none when its row does not run in it (R212, R218,
R219). -/
def State.treeFor (s : State) (st : Stream) : State :=
  let e := s.slot st.slot
  match s.reqAt st.slot, s.model e.model with
  | some r, some m =>
    let clear := s.modStream st.slot fun x => { x with tree := [], draft := none }
    if e.state ≠ .decode || st.ending.isSome || !e.runs then clear
    else if e.phase + 1 < e.steps || (s.readsBe st && st.unread ≠ some 0) then clear
    else
      let lim := s.treeLimits r m e
      let s1 := s.modSlot st.slot fun e => { e with depth := lim.1, nodes := lim.2 }
      let root := rootTree e.last
      if lim.1 = 1 || lim.2 ≤ 1 then s1.modStream st.slot fun x => { x with tree := root, draft := none }
      else match st.draft with
        | some ps => s1.modStream st.slot fun x => { x with tree := draftTree ps e.last lim.1 lim.2, draft := none }
        | none => (s1.modStream st.slot fun x => { x with tree := root }).count 0x421004 1
  | _, _ => s

/-- Streams of a step that need masks. -/
def State.masked (s : State) : List Stream :=
  s.liveStreams.filter fun st => !st.tree.isEmpty && (s.reqAt st.slot).any fun r => r.clist ≠ 0

/-- A reflected stream is charged for all its nodes and never pruned or deferred (R298). -/
def State.reflected (s : State) (st : Stream) : Bool := (s.reqAt st.slot).any fun r => r.covered = 2

/-- The mask unit's nodes: roots first, reflected trees whole, then speculative nodes; what gets none is pruned, a BE root
without one is shed (R199, R200). -/
def State.masks (s : State) : State :=
  let all := s.masked
  let lc := all.filter fun st => !(s.slot st.slot).isBe
  let be := all.filter fun st => (s.slot st.slot).isBe
  let whole := ((all.filter s.reflected).map fun st => st.tree.length - 1).sum
  let room := 4000 - whole - lc.length
  let shed := be.drop room
  let left := room - (be.length - shed.length)
  let s1 := shed.foldl (fun s st => (s.modStream st.slot fun x => { x with tree := [] })) s
  let s2 := ((s1.count 0x401009 shed.length).count 0x421007 shed.length)
  let s3 : State := { s2 with step := { s2.step with shed := s2.step.shed || !shed.isEmpty } }
  (all.filter fun st => !s.reflected st && !(shed.any fun x => x.slot = st.slot)).foldl
    (fun (a : State × Nat) st =>
      let n := st.tree.length - 1
      let k := min n a.2
      ((a.1.modStream st.slot fun x => { x with tree := pruneTree x.tree k }).count 0x401007 (n - k), a.2 - k))
    (s3, left) |>.1

/-! ### The work list and slices (R214, R215) -/

/-- Streams by admission time. -/
def State.byAdmit (s : State) (l : List Stream) : List Stream :=
  let at_ (st : Stream) : Nat := (s.reqAt st.slot).elim 0 fun r => r.promise.admitTime
  sortBy (fun a b => at_ a < at_ b || (at_ a = at_ b && a.slot ≤ b.slot)) l

/-- Cell-handshakes of one row of a stream at its present context (R40). -/
def State.rowHs (s : State) (slot : Nat) : Nat :=
  let e := s.slot slot
  (s.model e.model).elim 0 fun m => tokenHs m.img (e.ctx + 1)

/-- The draft of a stream's model. -/
def State.draftOf (s : State) (slot : Nat) : Option ModelRes :=
  (s.model (s.slot slot).model).bind fun m => if m.img.draftId = 0 then none else s.modelId m.img.draftId 2

/-- The cross-encoder of a request's index version. -/
def State.crossOf (s : State) (r : Request) : Option ModelRes := (s.liveVer r.work.version).bind fun v => s.modelId v.img.ceImage 4

/-- Cell-handshakes of the stage work of a request: those that R168 charges at admission. -/
def State.stageHs (s : State) (r : Request) : Nat :=
  if r.work.stage = 3 then (s.encoderOf r).elim 0 fun m => m.img.hPre * r.work.encTokens.length
  else if r.work.stage = 9 then
    (s.crossOf r).elim 0 fun m => kCeN r.payload.rank * m.img.hPre
      * (m.img.queryMax + ((s.liveVer r.work.version).elim 0 fun v => v.img.headTokens) + m.img.features.length)
  else 0

/-- Cell-handshakes of an item of a work list. -/
def State.itemHs (s : State) (w : WorkItem) : Nat :=
  match w.group with
  | 3 | 5 => s.rowHs w.slot
  | 4 =>
    match s.req w.fn w.tag with
    | some r => if r.gen && r.work.stage = 13 then (s.model r.model).elim 0 fun m => m.img.hPre * w.amount else s.stageHs r
    | none => 0
  | 6 => (s.slot w.slot).nodes * ((s.draftOf w.slot).elim 0 fun m => tokenHs m.img ((s.slot w.slot).ctx + 1))
  | _ => 0

/-- Cell-handshakes of the step that its LC charges and the lateness of the step before leave (R37, R49). -/
def State.leftHs (s : State) : Nat :=
  let l := s.load .handshakes (stepOf s.now)
  s.rawCap .handshakes * (50000 - min 50000 s.step.lateNs) / 50000 - ceilDiv l.1 l.2

/-- Items in order while the handshakes last: those kept, and what is left. -/
def keepFit (cost : WorkItem → Nat) : Nat → List WorkItem → List WorkItem × Nat
  | left, [] => ([], left)
  | left, w :: r =>
    if cost w ≤ left then
      let x := keepFit cost (left - cost w) r
      (w :: x.1, x.2)
    else ([], 0)

/-- BE prefill chunks by ascending slot: the positions not yet prefilled, as far as handshakes remain (R214). -/
def State.beChunks (s : State) (left : Nat) (pre : List Stream) : List WorkItem :=
  (pre.foldl (fun (a : List WorkItem × Nat) st =>
    let e := s.slot st.slot
    let h := (s.model e.model).elim 0 fun m => m.img.hPre
    let n := e.prompt - 1 - e.pfDone
    let k := if h = 0 then n else min n (a.2 / h)
    if k = 0 then a
    else (a.1 ++ [{ group := 4, slot := st.slot, fn := st.fn, tag := st.tag, amount := k }], a.2 - k * h)) ([], left)).1

/-- The work list of the step that begins, before late work shortens it. -/
def State.workList (s : State) : List WorkItem :=
  let live := s.liveStreams.filter fun st => (s.slot st.slot).runs
  let lc (st : Stream) : Bool := !(s.slot st.slot).isBe
  let dec := live.filter fun st => (s.slot st.slot).state = .decode && (s.slot st.slot).phase = 0 && (lc st || !st.tree.isEmpty || 1 < (s.slot st.slot).steps)
  let pre := live.filter fun st => (s.slot st.slot).state = .prefill
  let item (g : Nat) (n : Stream → Nat) (st : Stream) : WorkItem := { group := g, slot := st.slot, fn := st.fn, tag := st.tag, amount := n st }
  let chunk (st : Stream) : Nat := let e := s.slot st.slot; ceilDiv (e.prompt - 1) (max 1 ((s.reqAt st.slot).elim 1 (·.nPf)))
  let stage := s.reqs.filter fun r => r.work.stage ∈ [3, 4, 8, 9]
  let work (g : Nat) (r : Request) : WorkItem := { group := g, slot := r.promise.handle / 65536, fn := r.fn, tag := r.tag }
  let lcR (r : Request) : Bool := r.lc && !r.withdrawn
  let spec (p : Stream → Bool) : List WorkItem := (live.filter p).flatMap fun st =>
    (List.range (st.tree.length - 1)).map fun i => { group := 5, slot := st.slot, fn := st.fn, tag := st.tag, node := i + 1 }
  let drafting := (s.byAdmit (dec.filter lc) ++ dec.filter fun st => !lc st).filter fun st =>
    1 < (s.slot st.slot).depth || (s.model (s.slot st.slot).model).any fun m => m.img.draftId ≠ 0
  let roots := (dec.filter fun st => !lc st).map (item 3 fun _ => 1)
  let chunks := s.beChunks (s.leftHs - (roots.map s.itemHs).sum) (pre.filter fun st => !lc st)
  let beStage := (stage.filter fun r => !lcR r).map (work 4)
  ((s.byAdmit (dec.filter lc)).map (item 1 fun _ => 1)) ++ ((s.byAdmit (pre.filter lc)).map (item 2 chunk))
    ++ ((stage.filter lcR).map (work 2)) ++ roots ++ sortBy (fun a b => a.slot ≤ b.slot) (chunks ++ beStage)
    ++ spec lc ++ (spec fun st => !lc st) ++ drafting.map (item 6 fun _ => 1)

/-- An item of BE work (R214). -/
def State.beItem (s : State) (w : WorkItem) : Bool := w.group = 3 || w.group = 4 || (5 ≤ w.group && (s.slot w.slot).isBe)

/-- What late work leaves of a work list: from the tail, BE work goes first, then speculation and drafts of LC streams, only as far
as the shortened step needs; groups 1 and 2 stay (R49, R214). -/
def State.trimLate (s : State) (ws : List WorkItem) : List WorkItem :=
  if s.step.lateNs = 0 then ws else
  let a := keepFit s.itemHs s.leftHs (ws.filter fun w => 5 ≤ w.group && !s.beItem w)
  let b := keepFit s.itemHs a.2 (ws.filter s.beItem)
  ws.filter fun w => w.group ≤ 2 || (a.1 ++ b.1).contains w

/-- The work list of the step with the trees that it leaves: a BE root that is shed verifies nothing and is counted, a tree keeps
its nodes that are still listed (R49, R214). -/
def State.setWork (s : State) : State :=
  let all := s.workList
  let ws := s.trimLate all
  let gone := all.filter fun w => !ws.contains w
  let shed := gone.filter fun w => w.group = 3
  let nodes (st : Stream) : Nat := (ws.filter fun w => w.group = 5 && w.slot = st.slot).length
  let cut (st : Stream) : Stream :=
    if shed.any (fun w => w.slot = st.slot) then { st with tree := [] }
    else if st.tree.isEmpty then st else { st with tree := pruneTree st.tree (nodes st) }
  ({ s with
    seq := { s.seq with streams := if gone.isEmpty then s.seq.streams else s.seq.streams.map cut }
    step := { s.step with
      work := ws
      shed := s.step.shed || gone.any fun w => w.group = 3 || w.group = 4
      trimmed := gone.any fun w => w.group = 5 } } : State).count 0x421007 shed.length

/-- The model whose plan an item's rows run: the encoder, the cross-encoder or the draft for their work, else the stream's own. Exact
re-ranking runs no model (R215). -/
def State.itemModel (s : State) (w : WorkItem) : Option ModelRes :=
  match s.req w.fn w.tag with
  | none => none
  | some r =>
    if w.group = 6 then s.draftOf w.slot
    else if r.work.stage = 3 || r.work.stage = 4 then s.encoderOf r
    else if r.work.stage = 9 then s.crossOf r
    else if r.gen && r.work.stage = 13 then s.model r.model
    else none

/-- Rows of a model added to the batches, newest first: the open batch of the model takes what it can hold, full batches and a new
open one the rest (R215). Batches are (model, rows). -/
def fillBatches (limit m n : Nat) (bs : List (Nat × Nat)) : List (Nat × Nat) :=
  let room := match bs.find? fun b => b.1 = m with
    | some b => limit - b.2
    | none => 0
  let k := min n room
  let i := (bs.findIdx? fun b => b.1 = m).getD bs.length
  let rest := n - k
  (if rest % limit = 0 then [] else [(m, rest % limit)]) ++ List.replicate (rest / limit) (m, limit)
    ++ modAt bs i fun b => (b.1, b.2 + k)

/-- Batches of a work list in the order in which they open. -/
def State.batches (s : State) (ws : List WorkItem) : List (Nat × Nat) :=
  (ws.foldl (fun bs w => match s.itemModel w with
    | some m => fillBatches (max 1 m.img.batchRows) m.slot w.amount bs
    | none => bs) []).reverse

/-- Handshakes of a plan's part cut into slices of at most 32,000 (R46, R215). -/
def cutHs (h : Nat) : List Nat := List.replicate (h / 32000) 32000 ++ (if h % 32000 = 0 then [] else [h % 32000])

/-- The slices of one batch of a model, in plan order: (layer, named cells, handshakes). A plan without layers is one slice. -/
def planSlices (m : ModelImage) : List (Nat × BitVec 16 × Nat) :=
  (if m.layers.isEmpty then [{ slices := [m.sliceHs] }] else m.layers).zipIdx.flatMap fun l =>
    (l.1.slices.flatMap cutHs).map fun h => (l.2, l.1.cells, h)

/-- Each batch's plan is cut into slices, placed on the first free blocks in scan order, in work-list order; a slice that finds none
waits (block 768). Copies still queued for a next model step become those of this one (R96). -/
def State.placeSlices (s : State) : State :=
  let bs := s.batches s.step.work
  let cuts := bs.flatMap fun b => match s.model b.1 with
    | some m => (planSlices m.img).map fun c => (b.1, c)
    | none => []
  let placed := cuts.foldl (fun (acc : List Slice × Nat) c =>
    (acc.1 ++ [{ id := acc.2, model := c.1, block := s.freeBlock acc.1 c.2.2.1, handshakes := c.2.2.2, layer := c.2.1, cells := c.2.2.1 }],
      acc.2 + 1)) ([], s.step.nextSlice)
  let next (j : MoverJob) : MoverJob :=
    let n := (s.layersOf j.slot).length
    if bs.any (fun b => b.1 = j.slot) && n ≤ j.layer then { j with layer := j.layer - n } else j
  (({ s with
    step := { s.step with slices := placed.1, nextSlice := placed.2 }
    tiers := { s.tiers with queues := s.tiers.queues.map fun q => (q.1, q.2.map next) } } : State).issueAll).runMovers

/-! ### The digest and the mirror message (R299..R302) -/

/-- Digest of one reflected stream. -/
def digestStream (d : BitVec 64) (handle generated : Nat) (toks : List Nat) (aut : BitVec 32) : BitVec 64 :=
  let d1 := mix64 (d ^^^ BitVec.ofNat 64 handle)
  let d2 := mix64 (d1 ^^^ BitVec.ofNat 64 (generated * 2 ^ 32 + toks.length))
  mix64 ((toks.foldl (fun d x => mix64 (d ^^^ BitVec.ofNat 64 x)) d2) ^^^ aut.setWidth 64)

/-- Digest of one reflected result. -/
def digestResult (d : BitVec 64) (r : Nat × List (Nat × Int)) : BitVec 64 :=
  r.2.foldl (fun d e => mix64 (mix64 (d ^^^ BitVec.ofNat 64 e.1) ^^^ BitVec.ofInt 64 e.2)) (mix64 (d ^^^ BitVec.ofNat 64 r.1))

/-- The step digest D: `outs` are the reflected streams with a token in the step, with the tokens they gave. -/
def State.digest (s : State) (outs : List (Stream × List Nat)) : BitVec 64 :=
  let d1 := outs.foldl (fun d x =>
    let e := s.slot x.1.slot
    digestStream d (handleOf x.1.slot e.gen) e.generated x.2 e.aut) (0 : BitVec 64)
  (sortBy (fun a b => a.1 ≤ b.1) s.pair.results).foldl digestResult d1

/-- One covered stream in MIRROR_STEP: its entry, its text state in shadow mode, its tree in reflect mode. -/
def State.mirrorStream (s : State) (r : Request) : List Byte :=
  let slot := r.promise.handle / 65536
  match s.streamAt slot with
  | none => []
  | some st =>
    let text := r.covered = 1 || s.pair.resync.contains slot
    let tree := if r.covered = 1 then [] else st.tree.map fun n => (n.parent, n.token)
    if text then mirrorStreamWire slot (s.slot slot).encode st.toks st.held st.utf tree
    else mirrorStreamWire slot (s.slot slot).encode [] [] [] tree

/-- MIRROR_STEP of an ended step: its digest, the last step whose records are written, the covered streams; a stream whose
state went over after a mismatch is reflected again (R303). `cells`: those that ran the reflected streams in the step. -/
def State.mirrorOut (s : State) (step : Nat) (d : BitVec 64) (cells : List Nat) : State :=
  let s1 : State := { s with pair := { s.pair with myDigest := some (step, d), results := [], digestCells := cells } }
  if s.pair.state ≠ .paired then { s1 with pair := { s1.pair with switched := [] } } else
  let mine := s.reqs.filter fun r => r.covered ≠ 0 && !r.mirror && r.gen
  let own (n : Nat) : Bool := mine.any fun r => r.promise.handle / 65536 = n
  let s2 := s1.emit (.fabric (s.entry 0xA10001) 0x44 [step, d.toNat, s.pair.written]
    (mirrorStepWire step d.toNat s.pair.written s.pair.switched (((mine.map s.mirrorStream)).filter fun b => !b.isEmpty)))
  ({ s2 with pair := { s2.pair with switched := [], resync := s2.pair.resync.filter fun n => !own n } } : State).compareDigests

/-! ### BASE_STEP_BOUNDARY -/

/-- The membership epoch follows a change of the membership (R283). -/
def State.epochStep (s : State) : State :=
  if s.fab.changed then { s with fab := { s.fab with epoch := s.fab.epoch + 1, changed := false } } else s

/-- DRAINING ends when nothing is outstanding (R355). -/
def State.drained (s : State) : State :=
  if s.mod.op = .draining && s.reqs.isEmpty && s.seq.streams.isEmpty then s.setOp .ready else s

/-- The step that begins: number, lateness (R49). A fenced die drops out of scan order (R14). -/
def State.beginStep (s : State) (late : Nat) : State :=
  { s with
    faults := { s.faults with droppedDies := s.faults.fencedDies }
    step := { s.step with
      no := stepOf s.now, begun := true, lateNs := late, shed := false, trimmed := false
      catchup := decide (0 < late), verified := false } }

/-- What a boundary does beyond R213: monitors and glints (R391, R392), membership (R283), sessions (R280), deltas (R257),
the pair (R293, R294), draining (R355). -/
def State.afterItems (s : State) : State :=
  (((((((s.monitors).startGlint).freeChannels).epochStep).openWanted).sendDeltas).pairStep).freeDue.drained

/-- The items of R213 in order, with the record of the step before written first where it was not yet (R217). -/
def State.boundary (s : State) (late : Nat) : State :=
  if !sweeping s.mod.op || (s.step.begun && stepOf s.now ≤ s.step.no) then s else
  let s0 := s.writeRecords
  let outs := (s0.bySlot.filter fun st => s0.reflected st && !s0.pair.resync.contains st.slot && st.out.any fun o => !o.tokens.isEmpty).map fun st =>
    (st, st.out.elim [] fun o => o.tokens.map (·.token))
  let cells := (s0.step.slices.filter fun x => x.block < 768 && outs.any fun o => (s0.slot o.1.slot).model = x.model).flatMap
    fun x => s0.cellsOf x.block
  let s1 := s0.endStep
  let d := s1.digest outs
  let s2 := ((s1.beginStep late).cuts).settleShares.replaceRegions.reevaluate
  let s3 := ((s2.cutMap.poolSwitch).settleLoads).placeTiles
  let s4 := s3.bySlot.foldl State.entryState s3
  let s5 := (s4.bySlot.foldl State.settleSteps s4).readBe
  let s6 := (s5.bySlot.foldl State.treeFor s5).masks
  (s6.setWork.placeSlices.mirrorOut s0.step.no d cells.eraseDups).afterItems

def execBaseStepBoundary (t lateNs : Nat) (s : State) : Host.Outcome State Fault Refusal :=
  .next ((s.tick t).boundary lateNs)

/-! ### DRAFT_FINISH (R219) -/

/-- The draft of a stream has finished: its proposals make the tree of the next step, after this step's verification. -/
def State.drafted (s : State) (slot : Nat) (props : List DraftProp) : State :=
  match s.streamAt slot, s.model (s.slot slot).model with
  | some st, some m =>
    if s.step.verified && st.ending.isNone && (s.slot slot).state = .decode && m.img.draftId ≠ 0 && m.img.resident then
      s.modStream slot fun x => { x with draft := some props }
    else s
  | _, _ => s

def execDraftFinish (t slot : Nat) (props : List DraftProp) (s : State) : Host.Outcome State Fault Refusal :=
  .next ((s.tick t).drafted slot props)

/-! ### VERIFICATION_END (R201, R220, R223, R227) -/

/-- What one stream's walk gave. -/
structure WalkOut where
  st : Stream
  req : Request
  toks : List TokenOut
  final : Option Status

/-- The walk of one stream over its verified rows; tokens past a stop string are undone (R192, R220). -/
def State.walkRow (s : State) (row : VerRow) : Option WalkOut :=
  match s.streamAt row.slot, s.reqAt row.slot with
  | some st, some r =>
    let e := s.slot row.slot
    if st.tree.isEmpty || st.ending.isSome then none else
    let m := s.model e.model
    let x : WalkIn := { gen := r.payload.gen, ends := m.elim [] fun m => endsOf m.img r, entries := s.entriesOf r
                        history := maskHistory r st st.toks, generated := e.generated, maxNew := r.maxNew, tree := st.tree
                        logits := row.logits }
    let w := walkTree x st.tree.length 0 [] 0
    let o := s.pathOver st r w.1
    some { st := st, req := r, toks := w.1.take o.2, final := if o.1.fired then some .stoppedString else w.2.1 }
  | _, _ => none

/-- Keeps the first `k` tokens; what is left out is drawn again later (R201, R223). -/
def WalkOut.keep (w : WalkOut) (k : Nat) : WalkOut :=
  if k < w.toks.length then { w with toks := w.toks.take k, final := none } else w

/-- A walk whose stream counts as reflected. -/
def WalkOut.exempt (w : WalkOut) : Bool := w.req.covered = 2

/-- The output path's tokens (R201): what is left after every LC committed token and every reflected token goes to BE
committed tokens, then to the surplus of LC and BE streams. Answers the walks, BE streams shed, tokens deferred. -/
def outLimit (be : WalkOut → Bool) (ws : List WalkOut) : List WalkOut × Nat × Nat :=
  let fixed := (ws.map fun w => if w.exempt then w.toks.length else if be w then 0 else min 1 w.toks.length).sum
  let room := 16384 - fixed
  let beWs := ws.filter fun w => be w && !w.exempt && !w.toks.isEmpty
  let shed := beWs.drop room
  let room1 := room - (beWs.length - shed.length)
  let ws1 := ws.filter fun w => !(shed.any fun x => x.st.slot = w.st.slot)
  let give (pick : WalkOut → Bool) (a : List WalkOut × Nat × Nat) : List WalkOut × Nat × Nat :=
    a.1.foldl (fun (acc : List WalkOut × Nat × Nat) w =>
      if pick w && !w.exempt then
        let extra := w.toks.length - 1
        let k := min extra acc.2.1
        (acc.1 ++ [w.keep (1 + k)], acc.2.1 - k, acc.2.2 + (extra - k))
      else (acc.1 ++ [w], acc.2.1, acc.2.2)) ([], a.2.1, a.2.2)
  let r := give be (give (fun w => !be w) (ws1, room1, 0))
  (r.1, shed.length, r.2.2)

/-- Accepted-KV copies within the table-share bytes that LC charges leave free (R223). -/
def kvLimit (kv : WalkOut → Nat) (free : Nat) (ws : List WalkOut) : List WalkOut × Nat :=
  let r := ws.foldl (fun (acc : List WalkOut × Nat × Nat) w =>
    if w.exempt then (acc.1 ++ [w], acc.2.1, acc.2.2) else
    let extra := w.toks.length - 1
    let k := if kv w = 0 then extra else min extra (acc.2.1 / kv w)
    (acc.1 ++ [w.keep (1 + k)], acc.2.1 - k * kv w, acc.2.2 + (extra - k))) ([], free, 0)
  (r.1, r.2.2)

/-- Forced tokens among those delivered that the list also bans (R196). -/
def forcedBanned (es : List (BitVec 576)) (hist : List Nat) : List Nat → List Nat → Nat
  | _, [] => 0
  | acc, t :: rest => (maskAfter es (hist ++ acc)).2.toNat + forcedBanned es hist (acc ++ [t]) rest

/-- A stream's outcome: the output path, the status order of R193, counters; applied at the boundary. -/
def State.deliver (s : State) (w : WalkOut) : State :=
  let opts := w.req.payload.opts
  let e := s.slot w.st.slot
  let x := s.pathOver w.st w.req w.toks
  let toks := w.toks.take x.2
  let final := if x.1.fired then some .stoppedString else w.final
  let o := if x.1.fired || final.isNone then x.1 else x.1.finish (oOutMode opts)
  let out : StepOut := { firstJ := e.generated, tokens := toks, bytes := o.released, final := final
                         lcAtStep := w.req.lc && !w.req.withdrawn }
  let es := s.entriesOf w.req
  let fb := if es.isEmpty then 0 else forcedBanned es (maskHistory w.req w.st w.st.toks) [] (toks.map (·.token))
  let s1 := s.modStream w.st.slot fun st => { st with held := o.held, utf := o.utf, out := some out }
  (((((((s1.count 0x421001 (min 1 toks.length)).count 0x421002 (toks.length - 1)).count 0x421006
    (final == some Status.internalFault).toNat).count 0x401003 o.repl).count 0x401004 x.1.fired.toNat).count 0x401005
    o.discarded).count 0x401006 fb)

/-- Cells of rows whose logit norm is beyond the limit (R391). -/
def State.normCells (s : State) (row : VerRow) : List Nat :=
  match s.model (s.slot row.slot).model with
  | some m =>
    if m.img.logitNorm = 0 then []
    else if row.logits.any (normFires (fMul (BitVec.ofNat 32 (s.entry 0x702003)) m.img.logitNorm)) then row.cells else []
  | none => []

/-- Bytes that LC charges of the table-bytes ledger leave free in this step, not reduced by u (R223). -/
def State.kvFree (s : State) : Nat :=
  let l := s.load .tblBytes (stepOf s.now)
  s.rawCap .tblBytes - ceilDiv l.1 l.2

/-- The end of verification. -/
def State.verify (s : State) (rows : List VerRow) : State :=
  if !s.step.begun || s.step.verified then s else
  let rs := sortBy (fun (a b : VerRow) => a.slot ≤ b.slot) rows
  let ws := rs.filterMap s.walkRow
  let be (w : WalkOut) : Bool := (s.slot w.st.slot).isBe
  let kv (w : WalkOut) : Nat := (s.model (s.slot w.st.slot).model).elim 0 fun m => m.img.kvTok
  let a := outLimit be ws
  let b := kvLimit kv s.kvFree a.1
  let nodes := (rs.map fun r => (s.streamAt r.slot).elim 0 fun st => min st.tree.length r.logits.length - 1).sum
  let s1 := ((((s.count 0x421003 nodes).count 0x421007 a.2.1).count 0x401009 a.2.1).count 0x401008 a.2.2).count 0x421005 b.2
  let s2 : State := { s1 with
    step := { s1.step with verified := true, shed := s1.step.shed || a.2.1 ≠ 0 }
    cells := { s1.cells with
      normSuspects := s1.cells.normSuspects ++ rs.flatMap s.normCells
      noCandidate := s1.cells.noCandidate + (b.1.filter fun w => w.final = some .internalFault).length } }
  b.1.foldl State.deliver s2

def execVerificationEnd (t : Nat) (rows : List VerRow) (s : State) : Host.Outcome State Fault Refusal :=
  .next ((s.tick t).verify rows)

end Sys2Proof.Machine
end

