-- ==== Sys2Proof/Machine/Slices.lean ====
section
/-!
DEFINITION. The end of a slice: its operations on the cells and the tiers (R62..R77), counters (R85), the block it frees (R215),
and a mismatch of its last row (R84).
-/
namespace Sys2Proof.Machine

/-- The first slice that waits takes the first free block (R215). -/
def State.placeNext (s : State) : State :=
  match s.step.slices.find? fun x => x.block = 768 && !x.ended && s.freeBlock s.step.slices x.cells ≠ 768 with
  | none => s
  | some x =>
    let b := s.freeBlock s.step.slices x.cells
    let put (y : Slice) : Slice := if y.id = x.id then { y with block := b } else y
    ({ s with step := { s.step with slices := s.step.slices.map put } } : State).issueAll

/-- Handshakes of a region in a time without real rows: the cadence last reported, at floor while none was (log 172). -/
def State.regionHs (s : State) (block dt : Nat) : Nat :=
  let c := s.power.cadence.getD (blockRegion block) 0
  dt * (if c = 0 then 1600 else c) / 1000

/-- The resident tiles of a model whose logical cell has no silicon left, as their master copies hold them: RAW, checked (R87, R91,
R382). -/
def State.homelessTiles (s : State) (slot : Nat) : List (Nat × BitVec 128 × List Byte) :=
  if !(s.model slot).any (fun m => m.homeless ≠ 0) then [] else
  (s.tiers.masters.filter fun m => m.slot = slot && s.ordDead m.cell).filterMap fun m =>
    let t := s.tileAt ⟨.image, m.die, m.stripe * 2560⟩
    let h := t.1.toNat
    if copyOk h t.2.1 then
      some (tlId h, BitVec.ofNat 128 (rawHeader h), ((decodeBody h t.2.1).elim [] (·.1)).take (tileBodyBytes h))
    else none

/-- Where a slice runs: an array is without rows from its last row until the slice begins. -/
def State.runAt (s : State) (x : Slice) : RunAt :=
  { block := x.block, now := s.now, hs := fun dt => s.regionHs x.block dt - x.handshakes
    homeless := s.homelessTiles x.model }

/-- The run of a slice on the cells and the tiers. -/
def State.sliceRun (s : State) (x : Slice) (ops : List SliceOp) : Run :=
  runSlice (s.runAt x) ops { mem := s.tiers.mem, cores := s.cells.cores }

/-- A slice that has its block, its copies, and no end yet (R94, R215). -/
def State.runningSlice (s : State) (id : Nat) : Option Slice :=
  s.step.slices.find? fun x => x.id = id && !x.ended && x.block ≠ 768 && s.copiesIn x

/-- Ends of slices whose last row may still be reported as a mismatch: 64 handshakes at floor (R84). -/
def State.freshEnds (s : State) : List FreshEnd := s.cells.fresh.filter fun e => s.now ≤ e.at_ + 40

/-- SLICE_END of a slice that runs: results visible, counts in the cells, failed format checks reported, the next slice placed, the
copies that waited for it moved. -/
def State.sliceEnd (s : State) (id : Nat) (ops : List SliceOp) : State :=
  match s.runningSlice id with
  | none => s
  | some x =>
    let r := s.sliceRun x ops
    let c := r.counts
    let done (y : Slice) : Slice := if y.id = id then { y with ended := true } else y
    let bad := c.nan + c.inf
    let cells : CellState := { s.cells with
      nan := s.cells.nan + c.nan, inf := s.cells.inf + c.inf, clamped := s.cells.clamped + c.clamped
      lowcut := s.cells.lowcut + c.lowcut, saturated := s.cells.saturated + c.saturated
      cores := r.cores
      fresh := ⟨id, x.block, s.now, r.undo⟩ :: s.freshEnds
      nanByModel := if bad = 0 then s.cells.nanByModel
        else setKey s.cells.nanByModel x.model (lookupD s.cells.nanByModel x.model 0 + bad)
      nanBlocks := if bad = 0 then s.cells.nanBlocks else s.cells.nanBlocks ++ [(x.model, x.block)] }
    let s1 : State := { s with cells := cells, tiers := { s.tiers with mem := r.mem }
                               step := { s.step with slices := s.step.slices.map done } }
    ((r.faults.foldl (fun s f => s.formatFault x.block f) s1).placeNext).runMovers

def execSliceEnd (t id : Nat) (ops : List SliceOp) (s : State) : Host.Outcome State Fault Refusal :=
  .next ((s.tick t).runMovers.sliceEnd id ops)

/-- A mismatch on a block takes back the slices that ended there within 64 handshakes: nothing of them stays visible, and they have
not ended (R84). -/
def State.takeBack (s : State) (block : Nat) : State :=
  let es := s.freshEnds.filter fun e => e.block = block
  let mem := es.foldl (fun m e => e.undo.foldl (fun m p => m.write p.1 p.2) m) s.tiers.mem
  let again (x : Slice) : Slice := if es.any (fun e => e.id = x.id) then { x with ended := false } else x
  { s with
    tiers := { s.tiers with mem := mem }
    cells := { s.cells with fresh := s.freshEnds.filter fun e => e.block ≠ block }
    step := { s.step with slices := s.step.slices.map again } }

end Sys2Proof.Machine
end

