-- ==== Sys2Proof/Machine/Fabric.lean ====
section
/-!
DEFINITION. Messages of index groups (R121, R132, R138, R160), hand-offs received and answered (R164, R165, R289..R292), step
records of a hand-off (R291), publication control (R138, R265).
-/
namespace Sys2Proof.Machine

/-! ### PUBLISH_CONTROL -/

/-- Member number of a fabric identifier in a group. -/
def memberOf (i : IndexImage) (id : Nat) : Option Nat := (List.range i.members).find? fun m => memberFab i m = id

/-- A report about an index publication (R138): load-ended and failure go to the owner, switch and abandonment come from it. -/
def State.indexControl (s : State) (id : Nat) (b : PublishControlBody) : State :=
  match s.index.pub with
  | none => s
  | some p =>
    match memberOf p.img id with
    | none => s
    | some m =>
      if p.img.version ≠ b.version then s
      else if b.kind = 0 then
        let q := { p with reported := if p.reported.contains m then p.reported else m :: p.reported, free := max p.free b.value }
        if s.isOwner p.img then s.groupSwitch q else { s with index := { s.index with pub := some q } }
      else if b.kind = 1 then (if m = s.owner p.img && p.loaded then s.fixSwitch p b.value else s)
      else if b.kind = 2 then s.abandon p b.status
      else if s.isOwner p.img then (s.reportFailure p.img b.status).abandon p b.status
      else s

/-- A report about a table version: an abandonment discards what is staged for its switch time; the requests here end with
REFUSED_CAPACITY (R265). -/
def State.tableControl (s : State) (b : PublishControlBody) : State :=
  if b.kind = 2 then s.discardStaged b.value .refusedCapacity else s

def execPublishControl (t : Nat) (hdr : BitVec 256) (b : PublishControlBody) (s : State) : Host.Outcome State Fault Refusal :=
  .next ((s.tick t).receive 0x08 5 hdr fun x s =>
    if 3 < b.kind then s.discard else if b.index then s.indexControl x.ident b else s.tableControl b)

/-! ### SLATE_BOOK and SLATE (R121) -/

/-- A member's part of the next slate reaches the owner; its items carry the member that sent them. -/
def State.slateBooked (s : State) (id n : Nat) (items : List SlateItem) : State :=
  match s.imgOf n with
  | none => s
  | some v =>
    match memberOf v.img id with
    | none => s
    | some m =>
      if n < s.sweep.nextNo || s.openSweep < n || !s.isOwner v.img || s.sweep.groupFrom.contains (n, m) then s else
      let s1 : State := { s with sweep := { s.sweep with
        groupItems := s.sweep.groupItems ++ ((items.filter fun i => i.member = m).map fun i => (n, i))
        groupFrom := (n, m) :: s.sweep.groupFrom } }
      if n < s.openSweep then s1.ownerTry v.img n else s1

def execSlateBook (t : Nat) (hdr : BitVec 256) (sweepNo : Nat) (items : List SlateItem) (s : State) :
    Host.Outcome State Fault Refusal :=
  .next ((s.tick t).receive 0x10 2 hdr fun x s => s.slateBooked x.ident sweepNo items)

/-- The closed slate comes back from the owner. -/
def State.slateReturned (s : State) (id n : Nat) (items : List SlateItem) : State :=
  match s.imgOf n with
  | none => s
  | some v => if memberFab v.img (s.owner v.img) = id then s.applySlate v.img.member n items else s

def execSlate (t : Nat) (hdr : BitVec 256) (sweepNo : Nat) (items : List SlateItem) (s : State) :
    Host.Outcome State Fault Refusal :=
  .next ((s.tick t).receive 0x11 2 hdr fun x s => s.slateReturned x.ident sweepNo items)

/-! ### PARTNER_LIST (R132, R288) -/

def plSweep (w : BitVec 512) : Nat := bits w.toNat 511 448
def plPass (w : BitVec 512) : Nat := bits w.toNat 447 384
def plTie (w : BitVec 512) : Nat := bits w.toNat 383 352
def plVersion (w : BitVec 512) : Nat := bits w.toNat 351 336
def plShard (w : BitVec 512) : Nat := bits w.toNat 335 320
def plMember (w : BitVec 512) : Nat := bits w.toNat 319 304
def plPos (w : BitVec 512) : Nat := bits w.toNat 303 288
def plCount (w : BitVec 512) : Nat := bits w.toNat 287 272
def plDk (w : BitVec 512) : Nat := bits w.toNat 271 256

/-- An entry of R126 from its word. -/
def entryOfWord (w : BitVec 128) : ListEntry := ⟨bits w.toNat 127 64, bits w.toNat 63 48, bits w.toNat 47 16⟩

/-- The source that a message carries. -/
def partnerSrc (b : PartnerListBody) : PartnerSrc :=
  { member := plMember b.header, shard := plShard b.header, entries := (b.entries.take (plCount b.header)).map entryOfWord
    dK := plDk b.header, tie := plTie b.header, filterPass := plPass b.header
    saturated := bits b.header.toNat 255 255 = 1, clipped := bits b.header.toNat 254 254 = 1
    incomplete := bits b.header.toNat 253 253 = 1 }

/-- The sweep of a list, running or finished. -/
def State.sweepNo (s : State) (n : Nat) : Option SweepRun :=
  (s.sweep.running.toList ++ s.sweep.finished).find? fun w => w.no = n

/-- The sweep that a list is for: running or finished, or that of a closed slate, which another member may have begun before
(R51, R132). -/
def State.listSweep (s : State) (n : Nat) : Option SweepRun :=
  match s.sweepNo n, getKey s.sweep.closed n, s.imgOf n with
  | some w, _, _ => some w
  | none, some slate, some v => some { no := n, start := 0, version := v.img.version, slate := slate
                                       partners := (s.sweep.early.filter fun e => e.1 = n).map (·.2) }
  | none, _, _ => none

/-- The query that a list is for, while its list may still come: an own position of that sweep and version, in time. -/
def State.listTarget (s : State) (id : Nat) (b : PartnerListBody) (fwd : Bool) : Option (Nat × Nat) :=
  match s.listSweep (plSweep b.header) with
  | none => none
  | some w =>
    match s.liveVer w.version, w.slate[plPos b.header]? with
    | some v, some p =>
      if w.version = plVersion b.header && p.member = v.img.member && (fwd || memberFab v.img (plMember b.header) = id)
          && fwd = (s.req p.fn p.tag).any (fun r => r.mirror)
          && s.now ≤ s.partnerDeadline v.img w.no
          && !((w.partnersOf (plPos b.header)).any fun q => q.member = plMember b.header) then some (p.fn, p.tag)
      else none
    | _, _ => none

/-- A list is accepted, or discarded and counted; the query completes with its last list. -/
def State.takeList (s0 : State) (id : Nat) (b : PartnerListBody) (fwd : Bool) : State :=
  match s0.listTarget id b fwd with
  | none => s0.count 0x302007 1
  | some (f, tag) =>
    let s := match s0.req f tag with
      | some r => s0.forwardInput r 0x12 [plSweep b.header, plPos b.header]
          (listWire b.header.toNat (b.entries.map fun (e : BitVec 128) => e.toNat))
      | none => s0
    let add (w : SweepRun) : SweepRun :=
      if w.no = plSweep b.header then { w with partners := w.partners ++ [(plPos b.header, partnerSrc b)] } else w
    let early := if (s.sweepNo (plSweep b.header)).isSome then s.sweep.early
      else s.sweep.early ++ [(plSweep b.header, plPos b.header, partnerSrc b)]
    ({ s with sweep := { s.sweep with
        running := s.sweep.running.map add, finished := s.sweep.finished.map add, early := early } } : State).tryMerge f tag

def execPartnerList (t : Nat) (hdr : BitVec 256) (b : PartnerListBody) (s : State) : Host.Outcome State Fault Refusal :=
  .next ((s.tick t).receive 0x12 2 hdr fun x s =>
    if bits b.header.toNat 252 0 ≠ 0 || b.entries.any (fun e => bits e.toNat 15 0 ≠ 0) then s.discard
    else s.takeList x.ident b (isForward hdr))

/-! ### Candidates of other members (R160) -/

/-- Flash bytes that a message takes from the remote allotment (R147). -/
def candBytes (i : IndexImage) (b : CandBody) : Nat :=
  b.items.length * (if b.passages then (ceilDiv (16 + 4 * i.passageMax) 4096 + 1) * 4096 else 4096)

/-- Takes bytes of the remote allotment of this 1 ms slot; false when it is exhausted. -/
def State.takeCand (s : State) (n : Nat) : State × Bool :=
  let slot := s.now / 1000000
  let used := if s.pool.candSlot = slot then s.pool.candServed else 0
  if used + n ≤ s.entry 0x310002 then
    ({ s with pool := { s.pool with candSlot := slot, candServed := used + n } }, true)
  else (s, false)

/-- One answered candidate: its score and head tokens, or its passage, with its mark (R154, R159). -/
def candAnswer (i : IndexImage) (v : Option VocabImage) (b : CandBody) (o : Nat) : CandItem :=
  if b.passages then
    let toks := passageTokens i o
    let lost := passageLost i o b.unreadable
    { ord := o, lost := lost, tokens := if lost then [] else toks.map (BitVec.ofNat 32)
      forged := !lost && (match v with
        | some v => passageForged v toks
        | none => true) }
  else
    let x := scoreOf i b.q o
    if vecLost i o b.unreadable then { ord := o, lost := true }
    else { ord := o, score := x.1, heads := x.2.map (BitVec.ofNat 32) }

/-- CAND_REQ: served in READY, SERVING and DRAINING from the remote allotment, or refused at once (R160, R355; log 58). -/
def State.serveCands (s : State) (id : Nat) (b : CandBody) : State :=
  let answer (s : State) (items : List CandItem) (refused : Bool) : State :=
    let i := (s.liveVer b.version).map (·.img)
    s.emit (.fabric id 0x14 [b.tag, b.version, b.passages.toNat, refused.toNat]
      (candAnsWire b.tag b.version b.passages refused (i.elim 0 (·.shardId)) (i.elim 0 (·.headTokens)) items))
  match s.liveVer b.version with
  | none => answer s [] true
  | some v =>
    if !sweeping s.mod.op then answer s [] true
    else match s.takeCand (candBytes v.img b) with
      | (s1, true) =>
        let voc := (s.img.vocabs.find? fun x => x.copy_ = v.vocab).map (·.img)
        let items := b.items.map fun c => candAnswer v.img voc b c.ord
        let bad := b.items.filter fun c => !b.passages && vecMismatch v.img c.ord b.unreadable
        answer (bad.foldl (fun s c => s.record 0x11 2 0 7 0 0 .done (c.ord % 2 ^ 32)) s1) items false
      | (s1, false) => answer s1 [] true

def execCandReq (t : Nat) (hdr : BitVec 256) (b : CandBody) (s : State) : Host.Outcome State Fault Refusal :=
  .next ((s.tick t).receive 0x13 2 hdr fun x s => s.serveCands x.ident b)

/-- The request and shard that an answer is for: it waits in the stage of the message, and in time. -/
def State.candTarget (s : State) (id : Nat) (b : CandBody) (fwd : Bool) : Option (Request × Nat) :=
  s.reqs.findSome? fun r =>
    if r.tag = b.tag && r.mirror = fwd && r.work.version = b.version && r.work.stage = (if b.passages then 11 else 8)
        && s.now ≤ r.work.since + s.entry 0x310001 then
      match s.liveVer b.version with
      | some v => (r.work.remote.find? fun sh => fwd || (s.remoteSource r v.img sh).any fun m => memberFab v.img m = id).map
          fun sh => (r, sh)
      | none => none
    else none

/-- What an answer says of one candidate of its shard. -/
def candLearn (b : CandBody) (sh : Nat) (c : Cand) : Cand :=
  if shardOf c.id ≠ sh || (b.passages && !c.selected) then c else
  match if b.refused then none else b.items.find? fun i => i.ord = c.id % 2 ^ 48 with
  | none => { c with lost := true }
  | some i =>
    if i.lost then { c with lost := true }
    else if b.passages then { c with tokens := i.tokens.map fun t => bits t.toNat 17 0, forged := i.forged }
    else { c with score := some i.score, heads := i.heads.map fun t => bits t.toNat 17 0 }

/-- CAND_ANS in time for a shard awaited; any other is discarded (R160). -/
def State.takeCands (s : State) (id : Nat) (b : CandBody) (fwd : Bool) : State :=
  match s.candTarget id b fwd with
  | none => s
  | some (r, sh) =>
    ((s.forwardInput r 0x14 [b.tag, b.version, b.passages.toNat, b.refused.toNat]
      (candAnsWire b.tag b.version b.passages b.refused sh ((s.liveVer b.version).elim 0 (·.img.headTokens)) b.items)).modWork r.fn r.tag fun k => { k with
      remote := k.remote.filter (· ≠ sh), cands := k.cands.map (candLearn b sh) }).count 0x311006 b.refused.toNat

def execCandAns (t : Nat) (hdr : BitVec 256) (b : CandBody) (s : State) : Host.Outcome State Fault Refusal :=
  .next ((s.tick t).receive 0x14 2 hdr fun x s => s.takeCands x.ident b (isForward hdr))

/-! ### HANDOFF (R289, R291) -/

/-- The generation parameters as of a GENERATE with PROMPT_SRC 0 and a prompt count. -/
def handGen (g : BitVec 512) (n : Nat) : BitVec 512 := BitVec.ofNat 512 (g.toNat - gCount g * 2 ^ 448 + n % 2 ^ 32 * 2 ^ 448)

/-- The checks at the target: fields, then those of R210 against its own models (R149, R186, R198, R206; log 57). -/
def State.checkHandoff (s : State) (b : HandoffBody) (g : BitVec 512) : Option Status :=
  let n := hoTokens b.header
  let m := s.modelId (gModel g) 1
  let c := if oConstraint b.opts = 0 then none else s.clist (oConstraint b.opts)
  orElse (firstOf [
    (s.mod.op ≠ .serving, .stateConflict),
    (s.entry 0xA01003 = 0, .accessDenied),
    (n < 1 || 262016 < n || b.prompt.length ≠ n || !genFields b.gen true false || !optsOk b.opts b.stops, .fieldReserved),
    (!s.partner (hoReturn b.header), .unknownObject)]) <|
  orElse (s.check210 g n) <|
  firstOf [
    (oConstraint b.opts ≠ 0 && c.isNone, .unknownObject),
    (m.any (fun x => x.img.vocab ≠ hoVocab b.header || c.any fun y => clVocab y.img.header ≠ x.img.vocab), .stateConflict),
    (!(b.prompt.all (tokenField (((m.map (·.img.vocab)).bind s.vocab).elim 0 (·.img.tokenCount)))), .fieldReserved)]

/-- The request that a HANDOFF makes: LC when its promise is and 0xA010:0x03 allows it (R291). -/
def State.handRequest (s : State) (x : Session) (b : HandoffBody) : Request :=
  { fn := 1000 + x.idx, tag := hoTag b.header, op := 0x06, desc := b.header, ring := 0, index := 0
    lc := bits b.promise.toNat 31 24 = 0 && s.entry 0xA01003 = 2, origin := x.idx + 1, returnId := hoReturn b.header }

/-- Its admission as GENERATE with n base steps to a model step; its records go to the channel of session y. -/
def State.handStream (s : State) (x y : Session) (b : HandoffBody) (m : ModelRes) (n : Nat) : Option State :=
  let p : Payload := { gen := handGen b.gen (hoTokens b.header), opts := b.opts, stops := b.stops, prompt := b.prompt }
  ((startAdm s (s.handRequest x b) p 13).carry m (hoTokens b.header) n).stream s m (hoTokens b.header) 0 (0x8000 + y.idx) none n

/-- A HANDOFF from a session: the kept answer of a duplicate, a refusal, or an admission as GENERATE; its records go to
RETURN_ID. -/
def State.takeHandoff (s : State) (x : Session) (b : HandoffBody) : State :=
  match s.fab.kept.find? fun k => k.origin = hoOrigin b.header && k.tag = hoTag b.header && s.now < k.until_ with
  | some k => (s.count 0xA20007 1).emit (.fabric x.ident 0x21 [k.tag] (handoffAnsWire k.tag (statusCode k.status) k.promise.toNat))
  | none =>
    let g := handGen b.gen (hoTokens b.header)
    let r := s.handRequest x b
    if (s.req r.fn r.tag).isSome then s.handoffAnswer r .stateConflict else
    match s.checkHandoff b g, s.modelId (gModel g) 1, s.session (hoReturn b.header) with
    | some st, _, _ => s.handoffAnswer r st
    | none, some m, some y =>
      let s1 := s.admitStream r m (s.handStream x y b m)
      (match s1.req r.fn r.tag with
        | some q => s1.setPrompt q (b.prompt.map fun w => bits w.toNat 17 0)
        | none => s1)
    | none, _, _ => s.handoffAnswer r .unknownObject

def execHandoff (t : Nat) (hdr : BitVec 256) (b : HandoffBody) (s : State) : Host.Outcome State Fault Refusal :=
  .next ((s.tick t).receive 0x20 3 hdr fun x s =>
    if bits b.header.toNat 319 0 ≠ 0 then s.discard else s.takeHandoff x b)

/-! ### HANDOFF_ANS (R164, R165, R292) -/

/-- HANDLE of a promise record (R33). -/
def promHandle (p : BitVec 256) : Nat := bits p.toNat 63 32

/-- An answer: acceptance, refusal, or one that comes too late; a late acceptance is cancelled again and counted. -/
def State.takeAnswer (s0 : State) (from_ tag : Nat) (st : Status) (promise : BitVec 256) (fwd : Bool) : State :=
  match s0.reqs.find? fun r => r.tag = tag && r.work.stage = 14 && r.mirror = fwd && r.work.awaiting.isSome
      && (fwd || r.work.awaiting = some from_) with
  | some r =>
    let s := s0.forwardInput r 0x21 [tag] (handoffAnsWire tag (statusCode st) promise.toNat)
    let id := r.work.awaiting.getD from_
    if st = .done then
      let s1 : State := { s with fab := { s.fab with handles := s.fab.handles ++ [(id, promHandle promise, r.fn, r.tag)] } }
      s1.endHandoff r 1 0 id
    else s.failTarget r 1 (statusCode st) (decide (r.work.attempt + 1 < (handTargets r).length))
  | none =>
    if st = .done && !fwd && !(s0.fab.handles.any fun h => h.1 = from_ && h.2.1 = promHandle promise) then
      (s0.emit (.fabric from_ 0x22 [tag] (cancelWire tag))).count 0x311008 1
    else s0

def execHandoffAns (t : Nat) (hdr : BitVec 256) (tag : Nat) (status : Status) (promise : BitVec 256) (s : State) :
    Host.Outcome State Fault Refusal :=
  .next ((s.tick t).receive 0x21 3 hdr fun x s => s.takeAnswer x.ident tag status promise (isForward hdr))

/-! ### HANDOFF_CANCEL (R291) -/

/-- A cancellation of an accepted hand-off acts as a CANCEL under R28; one whose admission is still open discards it. The row's
`origin` repeats what the session names. -/
def State.cancelHandoff (s : State) (x : Session) (tag : Nat) : State :=
  match s.reqs.find? fun r => r.origin = x.idx + 1 && r.tag = tag with
  | none => s
  | some r =>
    if r.round.isSome then s.refuseRound r
    else s.modReq r.fn r.tag fun q => { q with cancelling := true }

def execHandoffCancel (t : Nat) (hdr : BitVec 256) (tag _origin : Nat) (s : State) : Host.Outcome State Fault Refusal :=
  .next ((s.tick t).receive 0x22 3 hdr fun x s => s.cancelHandoff x tag)

/-! ### STEP_RECORD (R229, R291) -/

/-- The part of a record whose streams belong to one function, with ROUTE rewritten to it (log 59). -/
def recordFor (f : Nat) (b : RecordBody) (ss : List StreamPart) : RecordBody :=
  let h := b.header.toNat
  let ss1 := placeBytes 0 ss
  let toks := (ss.map fun p => p.words.length).sum
  let bytes := (ss.map fun p => p.bytes.length).sum
  let size := ({ units := [ss] } : PartBody).size
  { header := BitVec.ofNat 512 (bits h 511 352 * 2 ^ 352 + size % 2 ^ 32 * 2 ^ 320 + ss.length % 2 ^ 16 * 2 ^ 304
      + toks % 2 ^ 16 * 2 ^ 272 + f % 2 ^ 16 * 2 ^ 256 + bits h 255 224 * 2 ^ 224 + bytes % 2 ^ 32 * 2 ^ 192 + bits h 191 0)
    streams := ss1, notices := [] }

/-- A record of a target: each function that handed off gets its streams on its ring; entries of no accepted hand-off are
discarded; a FINAL entry ends a handle. -/
def State.takeRecord (s : State) (id : Nat) (b : RecordBody) : State :=
  let owner (p : StreamPart) : Option Nat :=
    (s.fab.handles.find? fun h => h.1 = id && h.2.1 = eHandle p.entry).map fun h => h.2.2.1
  let fns := sortBy (fun a b => a ≤ b) (b.streams.filterMap owner).eraseDups
  let s1 := fns.foldl (fun s f => s.putRecord f (recOut (recordFor f b (b.streams.filter fun p => owner p = some f)))) s
  let ended := (b.streams.filter fun p => eFinal p.entry).map fun p => eHandle p.entry
  { s1 with fab := { s1.fab with handles := s1.fab.handles.filter fun h => !(h.1 = id && ended.contains h.2.1) } }

def execStepRecord (t : Nat) (hdr : BitVec 256) (b : RecordBody) (s : State) : Host.Outcome State Fault Refusal :=
  .next ((s.tick t).receive 0x23 3 hdr fun x s => s.takeRecord x.ident b)

end Sys2Proof.Machine
end

