-- ==== Sys2Proof/Machine/Start.lean ====
section
/-!
DEFINITION. Power states (R415), fences of HBM and of dies (R101, R103, R380, R384), starts: what they drop, their phases, their
failures (R397..R407), the way to OFF (R414), stop of service (R390).
-/
namespace Sys2Proof.Machine

/-! ### Power state (R415) -/

/-- The power state that the operating state, the idle mark and the cap give; P4 lasts until a start or a loss of power. -/
def State.powerFor (s : State) : PowerState :=
  if s.mod.op = .off then (if s.power.state = .p4 then .p4 else .p0)
  else if s.mod.op = .retained then .p3
  else if s.power.idle && sweeping s.mod.op then .p2
  else if s.entry 0x900003 < 3200 then .p1
  else .p0

/-- Brings the power state and ALERT_N up to date. -/
def State.settlePower (s : State) : State := (s.setPower s.powerFor).alert

/-- A change of operating state with the power state that belongs to it. -/
def State.enterOp (s : State) (o : OpState) : State := (s.setOp o).settlePower

/-! ### Fences of HBM and dies (R101, R103, R106, R380, R384) -/

/-- A channel (stack × 32 + channel) is out of service. -/
def State.channelOut (s : State) (c : Nat) : Bool := s.faults.fencedChannels.contains c || s.faults.fencedStacks.contains (c / 32)

/-- Fences an HBM channel; `lost`: request-pool granules lost with it. -/
def State.fenceChannel (s : State) (c lost : Nat) : State :=
  if s.channelOut c then s else
  let s1 : State := { s with faults := { s.faults with fencedChannels := s.faults.fencedChannels ++ [c] } }
  ((s1.count 0x602101 1).record 0x07 2 3 5 c 0 .recovered lost).capacityLoss.resweep

/-- Fences an HBM stack; `kind` tells a lost stack from a crossing fault of its PHY (R387). -/
def State.fenceStack (s : State) (k kind lost : Nat) : State :=
  if s.faults.fencedStacks.contains k then s else
  let s1 : State := { s with faults := { s.faults with fencedStacks := s.faults.fencedStacks ++ [k] } }
  ((s1.count 0x602101 1).record kind (if kind = 0x05 then 2 else s.hpLevel) 3 4 k 0 .recovered lost).capacityLoss.resweep

/-- Every request loses its granules on a die, the first admitted first (R23, R106). -/
def State.loseDieGranules (s : State) (d : Nat) : State :=
  ((sortBy (fun (a b : Request) => a.promise.admitTime ≤ b.promise.admitTime) s.reqs).map fun r => (r.fn, r.tag)).foldl
    (State.replaceOn (· = d) (· / 8 = d)) s

/-- A die leaves service under E6: its blocks, regions, lanes and HBM areas with it, and the granules that requests held there; its
sketch chunks stay unswept until they are reloaded (R23, R101, R106, R141). -/
def State.fenceDie (s : State) (d kind : Nat) : State :=
  if s.faults.fencedDies.contains d then s else
  let s1 : State := { s with
    faults := { s.faults with fencedDies := s.faults.fencedDies ++ [d] }
    pools := { s.pools with areas := modAt s.pools.areas d fun _ => [0, 0, 0, 0] }
    sweep := { s.sweep with unswept := (s.sweep.unswept ++ (List.range 8).map (d * 8 + ·)).eraseDups } }
  (((s1.count 0x701006 1).record kind 3 3 3 d 0 .recovered 0).redispatch (· / 192 = d)).loseDieGranules d |>.capacityLoss.resweep

/-- Fences what a memory BIST found: R394's UNIT_TYPE × 65,536 + UNIT (R400 phases 3 and 4; log 67). -/
def State.bistFence (s : State) (code : Nat) : State :=
  let u := code % 65536
  let ty := code / 65536
  if ty = 0 then (if cellAddrOk u then s.fenceCell u 0x01 .recovered 0 none else s)
  else if ty = 1 then (if u < 768 then s.fenceBlock u 0x03 else s)
  else if ty = 2 then (if u < 32 then s.fenceRegion u 0x04 else s)
  else if ty = 3 then (if u < 4 then s.fenceDie u 0x0F else s)
  else if ty = 4 then (if u < 24 then s.fenceStack u 0x08 0 else s)
  else if ty = 5 then (if u < 768 then s.fenceChannel u 0 else s)
  else if ty = 10 then (if u < 32 then s.fenceLane u 0 else s)
  else s

/-- Units that phase 3 tests, the rest being HBM. -/
def bistUnit (code : Nat) : Bool := code / 65536 ∈ [0, 1, 2, 3, 10]

/-! ### What ends with service -/

/-- Debug falls to D0; a D3 that ends makes the next start cold (R431). -/
def State.endDebug (s : State) : State :=
  let s1 : State := { s with
    sec := { s.sec with expiry := 0 }
    mod := { s.mod with forceCold := s.mod.forceCold || decide (s.sec.debug = .d3) } }
  s1.setDebug .d0

/-- Step 2 of R390: FINAL with INTERNAL_FAULT for every request of the host that is not covered; nothing for the rest. -/
def State.failAll (s : State) : State :=
  let s1 := (s.reqs.filter fun r => !r.mirror && r.covered = 0 && r.round.isNone).foldl (fun s r =>
    s.finish r { status := .internalFault, final := true }) s
  (s1.reqs.filter fun r => !r.mirror && r.covered = 0).foldl (fun s r =>
    (s.complete r { status := .internalFault, final := true } false).release r) s1

/-- Promises, ledgers, slots, sweeps, sessions and everything in progress end (R403). Current images stay listed: they are the
start set (R402; log 68). -/
def State.dropWork (s : State) : State :=
  let models := (s.img.models.filter fun m => !m.old).map fun m => { m with
    victim := false, nLc := 0, homeless := 0, rebuilt := 0, ahead := false, placed := false }
  let vocabs := s.img.vocabs.filter fun m => !m.old
  let templates := s.img.templates.filter fun m => !m.old
  let clists := s.img.clists.filter fun m => !m.old
  let share := s.entry 0x601001
  { s with
    reqs := [], seq := {}, step := {}, cells := {}, tiers := {}
    sweep := {}, index := { live := s.index.live.take 1 }
    adm := { lastAdmit := s.adm.lastAdmit, bSweep := share, bSweepTbl := share, bGen := s.entry 0x601002 }
    img := { copies := s.img.copies, models := models, vocabs := vocabs, templates := templates, clists := clists }
    pools := { s.pools with
      ovfHeld := 0
      hubGranules := 14336 - (vocabs.map (·.gran)).sum - (templates.map (·.gran)).sum - (clists.map (·.gran)).sum }
    pool := { epoch := s.pool.epoch, haveMap := s.pool.haveMap, ranges := s.pool.ranges, descs := s.pool.descs
              tables := s.pool.tables.filter (·.current), closedTo := s.pool.closedTo, epochWindow := s.pool.epochWindow
              journal := s.pool.journal, checkpoint := s.pool.checkpoint }
    fab := { ident := s.fab.ident }, tx := {}
    faults := { s.faults with
      suspects := {}, active := none, transient := [], recoveryEnds := 0
      stalled := [], resync := [] }
    power := { s.power with idle := false, deepDim := false, proj := 0, dimLow := 0 }
    sec := { s.sec with spdm := [], versionSent := [] }
    dict := { s.dict with sessions := [], fails := [], lockout := [] }
    pins := { s.pins with ppsOut := false } }

/-- Time is sought anew, and the pair forms anew, from a start on (R285, R294, R403). -/
def State.freshPair (s : State) : State :=
  let s1 : State := { s with ptp := { s.ptp with good := 0, offset := 0, holdoverAt := 0 }, pair := { state := s.pair.state } }
  (s1.setTime .acquiring).setPair (if s.peer = 0 then .unpaired else .forming)

/-- The rails go off: the module is OFF, nothing is written, HBM is no longer retained, volatile keys are gone (R401, R414, R424,
R438). -/
def State.railsOff (s : State) : State :=
  let s1 := s.dropWork.freshPair.endDebug
  ({ s1 with
    out := s.out
    mod := { s1.mod with op := .off, phase := 0, hbmHeld := false, baseHeld := false, stateSince := 0 }
    power := { s1.power with state := .p0, high := false, sag := false, cadence := List.replicate 32 0, rail := 0 }
    host := { perstHigh := s.host.perstHigh }
    sec := { s1.sec with kek := false }
    dict := { s1.dict with canQueue := [], canWaiting := [], canPending := [] }
    pins := { s1.pins with pwrGood := false } } : State).alert

/-! ### The beginning of a start (R397, R399..R401, R404) -/

/-- A cold start resets the function registers and clears the fence map, whose units it tests again (R313, R404). -/
def State.coldReset (s : State) : State :=
  let f := s.faults
  let was := s.fencedCells
  let s1 : State := { s with
    host := { perstHigh := s.host.perstHigh }
    pools := { s.pools with areas := List.replicate 4 (dieAreas (s.inForce 0x500001)) }
    faults := { f with
      fencedCells := [], spareOf := [], fencedBlocks := [], fencedRegions := [], fencedDies := [], fencedLanes := []
      droppedDies := []
      fencedChannels := [], fencedStacks := [], canDown := false } }
  let s2 := ((s1.setEntry 0x701004 0).setEntry 0x701005 0).setEntry 0x701006 0
  if was = 0 then s2 else s2.raise 0x700005

/-- A start begins with phase 1. `retained`: HBM was held in self-refresh since an orderly exit; `dark`: commanded from DARK. -/
def State.beginStart (s : State) (warm retained dark : Bool) : State :=
  let s1 := s.endDebug
  let w := warm && !s1.mod.forceCold
  let s2 := s1.dropWork.freshPair
  let s3 := if w then s2 else s2.coldReset
  let s4 : State := { s3 with
    mod := { s3.mod with
      phase := 1, warm := w, hbmRetained := w && retained, hbmHeld := false, startBegan := s.now
      startCount := s3.mod.startCount + 1, forceCold := false, darkCold := dark }
    power := { s3.power with state := if s3.power.state = .p4 then .p0 else s3.power.state } }
  s4.enterOp .starting

/-- RESUME, RESTART_WARM and RESTART_COLD: a CLEAN checkpoint, then the start; HBM is held in self-refresh for a warm one (R354,
R401). -/
def State.restart (s : State) (warm : Bool) : State :=
  ({ s with flash := s.flash.checkpoint } : State).beginStart warm
    (warm && (s.mod.op = .ready || s.mod.hbmHeld)) (s.mod.op = .dark)

/-- A start by power or by MOD_RESET_N: warm when 0x1040:0x06 allows it and every stack in service has training results (R399);
both failure counts return to 0 (R407). -/
def State.powerStart (s : State) : State :=
  let stackNos := (List.range 24).filter fun k => !s.faults.fencedStacks.contains k
  let warm := s.entry 0x104006 = 1 && stackNos.all s.mod.trained.contains
  ({ s with mod := { s.mod with warmFails := 0, coldFails := 0 } } : State).beginStart warm false false

/-! ### Failed starts (R406..R408) -/

/-- DARK: recovery firmware runs; the dictionary answers. -/
def State.enterDark (s : State) : State :=
  ({ s with mod := { s.mod with phase := 0 } } : State).enterOp .dark

/-- A failed start: its reason, its record with ACTION 7, and what follows. -/
def State.startFail (s : State) (reason : Nat) : State :=
  if s.mod.op ≠ .starting then s else
  let s1 := ({ s with mod := { s.mod with lastReason := reason } } : State).record 0x13 s.pkgLevel 7 8 0 0 .internalFault 0
  let fails (w c : Nat) : State := { s1 with mod := { s1.mod with warmFails := w, coldFails := c } }
  if s.mod.darkCold then s1.enterDark
  else if s.mod.warm then
    (if s.mod.warmFails + 1 = 3 then (fails 0 s.mod.coldFails).beginStart false false false
     else (fails (s.mod.warmFails + 1) s.mod.coldFails).beginStart true false false)
  else if s.mod.coldFails + 1 = 2 then (fails s.mod.warmFails 2).enterDark
  else (fails s.mod.warmFails (s.mod.coldFails + 1)).beginStart false false false

def execStartFailed (t reason : Nat) (s : State) : Host.Outcome State Fault Refusal := .next ((s.tick t).startFail reason)

/-! ### Phases (R400) -/

/-- A firmware set is valid (R421). -/
def State.setValid (s : State) (x : FwSet) : Bool :=
  (match x.signer with
    | .root k => k < 4 && !s.mod.revoked.contains k
    | _ => false) && x.digestOk && s.mod.fuse ≤ x.secVersion

/-- The set GD starts: of the valid ones that with the highest security version, of equals the first. -/
def State.pickSet (s : State) : Option Nat :=
  (List.range s.mod.sets.length).foldl (fun (m : Option Nat) i =>
    match s.mod.sets[i]? with
    | none => m
    | some x => if !s.setValid x then m else match m.bind (s.mod.sets[·]?) with
      | some y => if y.secVersion < x.secVersion then some i else m
      | none => some i) none

/-- Phase k ended: the next one begins; a warm start skips phase 3. -/
def State.nextPhase (s : State) : State :=
  let k := s.mod.phase
  { s with mod := { s.mod with phase := if k = 2 && s.mod.warm then 4 else k + 1 } }

/-- The values of the next-start entries that are held now come into force (R405), the lend size among them (R242). -/
def State.takeHeld (s : State) : State :=
  let rows := odTable.filter fun r => r.effect = 1
  let keys := rows.flatMap fun r => (List.range r.count).map (r.key + ·)
  let s1 : State := { s with dict := { s.dict with held := keys.map fun k => (k, s.entry k) } }
  let s2 := s1.setEntry 0x101002 (s1.entry 0x101001)
  let sized (d : List Nat) : List Nat := if d.sum = 0 then d else dieAreas (s1.inForce 0x500001)
  { s2 with
    fab := { s2.fab with ident := s2.entry 0xA00001 }
    pools := { s2.pools with areas := s2.pools.areas.map sized } }

/-- The end of phase 2: firmware verified, keys unwrapped, the slot read, next-start values taken; RETIRED boots its recovery
firmware and stays in DARK (R405, R419, R421, R424, R437). -/
def State.booted (s : State) (slot : Nat) : State :=
  let s1 : State := { s with
    mod := { s.mod with slot := slot % 64 }
    sec := { s.sec with kek := true } }
  if s.sec.life = .retired then s1.takeHeld.enterDark
  else match s.pickSet with
    | none => s1.startFail 2
    | some i => ({ s1 with mod := { s1.mod with running := i } } : State).takeHeld.nextPhase

/-- Dies and stacks out of service make a start fail (R406, reason 4). -/
def State.diesLost (s : State) : Bool :=
  if s.e6 then decide (2 ≤ s.faults.fencedDies.length)
  else !s.faults.fencedDies.isEmpty
    || (List.range 4).any fun d => 2 ≤ (s.faults.fencedStacks.filter fun k => k / 6 = d).length

/-- The end of phase 4: training results are stored for every stack in service. -/
def State.hbmReady (s : State) : State :=
  let stackNos := (List.range 24).filter fun k => !s.faults.fencedStacks.contains k
  let s1 : State := { s with mod := { s.mod with trained := stackNos } }
  if s1.diesLost then s1.startFail 4 else s1.nextPhase

/-- The end of phase 5: the CLEAN checkpoint loaded, or the map rebuilt (R370..R372). -/
def State.mapReady (s : State) : State :=
  if s.mod.warm && s.flash.clean then (s.setEntry 0x61000A 2).nextPhase
  else
    let fl := s.flash.rebuild
    (({ s with flash := fl.closeOpen }.setEntry 0x61000A 1).count 0x61000B fl.openUnits).nextPhase

/-- Images of the start set that stay out: no sound copy in flash, or one that names an image left out (R402). -/
def State.leftOut (s : State) (bad : List Nat) : List Nat :=
  let ok (id : Nat) : Bool := !bad.contains id && (s.flash.stored.any fun x => x.id = id && !x.damaged)
  let vocabOut (v : Nat) : Bool := !(s.img.vocabs.any fun x => x.img.vocabId = v && ok x.imageId)
  let draftOut (d : Nat) : Bool := d ≠ 0 && !(s.img.models.any fun x => x.img.modelId = d && ok x.imageId && !vocabOut x.img.vocab)
  let modelOut (p : ModelRes → Bool) : Bool := s.img.models.any p
    && !(s.img.models.any fun x => p x && ok x.imageId && !vocabOut x.img.vocab)
  (s.img.vocabs.filter fun x => !ok x.imageId).map (·.imageId)
    ++ (s.img.models.filter fun x => !ok x.imageId || vocabOut x.img.vocab || draftOut x.img.draftId).map (·.imageId)
    ++ (s.img.templates.filter fun x => !ok x.imageId || vocabOut x.img.vocab).map (·.imageId)
    ++ (s.img.clists.filter fun x => !ok x.imageId).map (·.imageId)
    ++ (s.index.live.filter fun x => !ok x.imageId || modelOut (fun m => m.img.modelId = x.img.ceImage)
      || modelOut (fun m => m.img.kind = 3 && m.img.rotations.contains x.img.rotationId)
      || (x.img.passageVocab ≠ 0 && vocabOut x.img.passageVocab)).map (·.imageId)

/-- The end of phase 6: the start set is resident; a stored image left out is counted, one that is damaged or fails its digest
is recorded as well. -/
def State.imagesReady (s : State) (bad : List Nat) : State :=
  let out := s.leftOut bad
  let inn (id : Nat) : Bool := !out.contains id
  let stored := out.filter fun id => s.flash.stored.any fun x => x.id = id
  let damaged := stored.filter fun id => bad.contains id || s.flash.stored.any fun x => x.id = id && x.damaged
  let vocabs := s.img.vocabs.filter fun x => inn x.imageId
  let templates := s.img.templates.filter fun x => inn x.imageId
  let clists := s.img.clists.filter fun x => inn x.imageId
  let s1 : State := { s with
    img := { s.img with
      models := s.img.models.filter fun x => inn x.imageId
      vocabs := vocabs, templates := templates, clists := clists }
    index := { s.index with live := s.index.live.filter fun x => inn x.imageId }
    pools := { s.pools with
      hubGranules := 14336 - (vocabs.map (·.gran)).sum - (templates.map (·.gran)).sum - (clists.map (·.gran)).sum } }
  let s2 := s1.setEntry 0x104007 stored.length
  (damaged.foldl (fun s _ => s.record 0x0E s.pkgLevel 5 8 0 0 .internalFault 0) s2).nextPhase

/-- Rows of the pool are kept with HBM retained, else rebuilt from flash (R268, R401). -/
def State.rebuildPool (s : State) : State :=
  let row (x : PoolTable) (r : PoolRow) : PoolRow :=
    match s.rebuilt x r.row with
    | some v => { row := r.row, value := v }
    | none => { r with prev := [], lost := true }
  { s with pool := { s.pool with tables := s.pool.tables.map fun x => { x with rows := x.rows.map (row x) } } }

/-- The end of phase 7: the fused counter follows a set that reaches phase 8 (R421). -/
def State.residentsReady (s : State) : State :=
  let s0 := if s.mod.hbmRetained then s else s.rebuildPool
  let s1 := s0.placeTiles
  let v := (s1.mod.sets[s1.mod.running]?).elim 0 (·.secVersion)
  ({ s1 with mod := { s1.mod with fuse := max s1.mod.fuse v } } : State).nextPhase

/-- RO entries whose values a start keeps (R403); the others that count are cleared. -/
def keptAtStart (key : Nat) : Bool :=
  let i := key / 256
  i ∈ [0x1000, 0x1010, 0x1020, 0x1040, 0x1050, 0x6020, 0x8000] || (0x6100 ≤ i && i ≤ 0x6130)
    || key ∈ [0x700001, 0x700004, 0x701004, 0x701005, 0x701006, 0x701007]

/-- RO counters are cleared, but those kept. -/
def State.clearCounters (s : State) : State :=
  let stays (p : Nat × Nat) : Bool := keptAtStart p.1 || (odFind p.1).any fun r => r.acc ≠ .ro
  { s with dict := { s.dict with vals := s.dict.vals.filter stays } }

/-- ORIGIN and sweep numbers after a start (R119, R403). -/
def State.startSweeps (s : State) : State :=
  match s.index.live.head? with
  | none => s
  | some v =>
    let period := s.periodFor v.img
    let group := decide (1 < v.img.members)
    let origin := if group then v.img.origin else (s.now / 1000 + 1) * 1000
    let first := if origin ≤ s.now + slateLead ∧ 0 < period then (s.now + slateLead - origin) / period + 1 else 0
    { s with sweep := { s.sweep with origin := origin, segs := [(0, origin, period)], nextNo := first } }

/-- The end of phase 8: what remains is cleared; READY, or SERVING (R403, R407). BLANK never serves (R419). -/
def State.started (s : State) : State :=
  let s1 := s.clearCounters
  let s2 : State := { s1 with
    tx := {}, fab := { s1.fab with sessions := [], handles := [], kept := [], opens := [], unreachable := [], nextSess := 1 }
    dict := { s1.dict with sessions := s1.dict.sessions.map fun d => { d with role := .observer } }
    sec := { s1.sec with spdm := [], versionSent := [] }
    mod := { s1.mod with phase := 0, warmFails := 0, coldFails := 0 } }
  let s3 := (s2.setEntry 0x104005 ((s.now - s.mod.startBegan) / 1000000)).setEntry 0x102004 s.mod.warm.toNat
  (s3.enterOp (if s3.inForce 0x102003 = 1 && s3.sec.life ≠ .blank then .serving else .ready)).startSweeps

/-- START_PHASE_DONE: the phase in progress ends. -/
def State.phaseDone (s : State) (slot : Nat) (failing bad : List Nat) : State :=
  if s.mod.op ≠ .starting then s else
  match s.mod.phase with
  | 1 => ({ s with pins := { s.pins with pwrGood := true } } : State).setRail.nextPhase
  | 2 => s.booted slot
  | 3 => ((failing.filter bistUnit).foldl State.bistFence s).nextPhase
  | 4 => ((failing.filter fun c => !bistUnit c).foldl State.bistFence s).hbmReady
  | 5 => s.mapReady
  | 6 => s.imagesReady bad
  | 7 => s.residentsReady
  | _ => s.started

def execStartPhaseDone (t : Nat) (slotId : Nat) (failing badImages : List Nat) (s : State) : Host.Outcome State Fault Refusal :=
  .next ((s.tick t).phaseDone slotId failing badImages)

/-! ### Stop of service (R390) -/

/-- HP stops service: the record, INTERNAL_FAULT for what is not covered, a cold start. During a start it fails the start
(R406, reason 3). -/
def State.stopService (s : State) (kind unitType unit : Nat) : State :=
  if s.mod.op = .starting then s.startFail (if kind = 0x0F then 4 else 3) else
  let s1 := s.record kind s.pkgLevel 7 unitType unit 0 .internalFault 0
  if sweeping s.mod.op then s1.failAll.beginStart false false false else s1

/-! ### P4 (R416) -/

/-- Entry into P4, in the order of R416. -/
def State.enterP4 (s : State) : State :=
  let s1 := s.endDebug
  let s2 := ({ s1 with flash := s1.flash.checkpoint } : State).railsOff
  { s2 with power := { s2.power with state := .p4 } }

end Sys2Proof.Machine
end

