-- ==== Sys2Proof/Machine/Security.lean ====
section
/-!
DEFINITION. Keys and their erasure (R423..R425), lifecycle transitions (R420), debug grants (R428..R431), the SPDM responder
(R425..R427).
-/
namespace Sys2Proof.Machine

/-! ### Key slots (R362, R373, R425) -/

/-- Crypto-erases one slot: its key, the objects stored under it, and its count rises by one. -/
def State.eraseSlot (s : State) (k : Nat) : State :=
  let gone := (s.flash.stored.filter fun x => x.fn + 1 = k).map (·.id)
  let s1 : State := { s with
    sec := { s.sec with slots := dropKey s.sec.slots k, erased := setKey s.sec.erased k (lookupD s.sec.erased k 0 + 1) } }
  gone.foldl State.dropStored s1

/-- Crypto-erases the tenants' slots 1..64. -/
def State.eraseTenants (s : State) : State := (List.range 64).foldl (fun s f => s.eraseSlot (f + 1)) s

/-- Crypto-erases every slot in use: 65..255 never occur (R373). -/
def State.eraseAll (s : State) : State := (s.eraseSlot 0).eraseTenants

/-- Formats the flash map: nothing is stored any more, wear and retired superblocks stay (R365, R420). -/
def State.formatFlash (s : State) : State :=
  let fl := s.flash.trim [] (s.flash.map.map (·.block))
  { s with
    flash := { fl with stored := [], map := [], logs := [], hot := [], hotNext := [], clean := false }
    pool := { servedStep := s.pool.servedStep } }

/-! ### Lifecycle (R420, R424) -/

/-- PROVISION: the identity is generated; no key of BLANK is rewrapped. -/
def State.provision (s : State) : State :=
  ({ s with sec := { s.sec with identity := true, slots := [], roleKeys := [] } } : State).setLife .opened

/-- SEAL: tenants' slots erased; slot 0, the identity and the role keys rewrapped. -/
def State.seal (s : State) : State := s.eraseTenants.setLife .sealed

/-- RETIRE: every slot and the role keys erased, the identity rewrapped, the map formatted. -/
def State.retire (s : State) : State :=
  let s1 := s.eraseAll
  ({ s1 with sec := { s1.sec with roleKeys := [] } } : State).formatFlash.setLife .retired

/-! ### Debug (R428..R430) -/

/-- The lifecycle accepts a token signer (R428); `key` is the token's KEY_ID, an index of the accepted list. -/
def State.tokenSigner (s : State) (g : Signer) (key : Nat) : Bool :=
  let owners := ownerKeys s.sec.debugKeys
  match s.sec.life, g with
  | .blank, .debugKey => key = 0
  | .retired, .debugKey => key = 0
  | .opened, .debugKey => key = owners
  | .opened, .owner k => k = key && k < owners
  | .sealed, .owner k => k = key && k < owners
  | _, _ => false

/-- What a D3 grant does first in SEALED: tenants' slots erased, the request pool, the pool lend area and hub SRAM filled with
zeros (R430; log 197). -/
def State.sanitise (s : State) : State :=
  let s1 := s.eraseTenants
  let zero (x : PoolTable) : PoolTable := { x with rows := x.rows.map fun r =>
    { r with value := { elems := r.value.elems.map fun _ => 0, scales := r.value.scales.map fun _ => 0 }, prev := [] } }
  { s1 with
    img := { s1.img with scratch := [] }
    tiers := { s1.tiers with mem := s1.tiers.mem.filter fun c => !([tierNo .pool, tierNo .hub].contains (c.1 / 2 ^ 56)) }
    host := { s1.host with fns := s1.host.fns.map fun x =>
      { x with sbr := { x.sbr with ovf := x.sbr.ovf.map fun r => { r with bits := 0 } } } }
    pool := { s1.pool with tables := s1.pool.tables.map zero, replicas := [], lists := [] } }

/-- A grant. -/
def State.grant (s : State) (l : DebugLevel) (until_ : Time) : State :=
  let s1 := if l = .d3 && s.sec.life = .sealed then s.sanitise else s
  ({ s1 with sec := { s1.sec with expiry := until_ } } : State).setDebug l

/-- The level falls to D0; a D3 that ends is followed by a cold start (R431). -/
def State.debugFall (s : State) : State :=
  if s.sec.debug = .d3 then s.endDebug.restart false else s.endDebug

/-- NOT_AFTER passes (R431). -/
def execDebugExpiry (t : Nat) (s : State) : Host.Outcome State Fault Refusal :=
  let s1 := s.tick t
  .next (if (s1.sec.debug = .d2 || s1.sec.debug = .d3) && s1.sec.expiry ≤ s1.now then s1.debugFall else s1)

/-! ### SPDM (R425..R427) -/

/-- AP and GD run from the end of phase 2 of a start on, and in every later state (R353, R400). -/
def State.hubRuns (s : State) : Bool := s.mod.op ≠ .off && (s.mod.op ≠ .starting || 3 ≤ s.mod.phase)

/-- The responder is reached on a channel: the mailbox of a function, or an OPEN Etnan session; DARK runs no responder but
RETIRED's (R408, R426). -/
def State.spdmOn (s : State) (chan : Nat) (etnan : Bool) : Bool :=
  s.hubRuns && (s.mod.op ≠ .dark || s.sec.life = .retired)
    && (if etnan then s.fab.sessions.any fun x => x.idx = chan && x.state = .opened else s.fnExists chan)

/-- How far a channel has come: 1 version, 2 capabilities, 3 algorithms. -/
def State.spdmLevel (s : State) (chan : Nat) (etnan : Bool) : Nat :=
  ((s.sec.versionSent.find? fun v => v.1 = etnan && v.2.1 = chan).map (·.2.2)).getD 0

/-- Sets how far a channel has come. -/
def State.setSpdmLevel (s : State) (chan : Nat) (etnan : Bool) (n : Nat) : State :=
  { s with sec := { s.sec with versionSent :=
      (s.sec.versionSent.filter fun v => !(v.1 = etnan && v.2.1 = chan)) ++ [(etnan, chan, n)] } }

/-- An SPDM ERROR: 0x04 UnexpectedRequest, 0x07 UnsupportedRequest, 0x01 InvalidRequest, 0x02 InvalidSession, 0x06 DecryptError
(log 80). -/
def State.spdmError (s : State) (chan : Nat) (etnan : Bool) (code : Nat) : State := s.emit (.spdm etnan chan 0x7F [code])

/-- An answer: what the manual gives of it, then contents that DSP0274 and the keys give (log 4). -/
def State.spdmAnswer (s : State) (chan : Nat) (etnan : Bool) (code : Nat) (value : List Nat) : State :=
  (s.emit (.spdm etnan chan code (value ++ [(Config.freeSpdm s.freeCtr code).toNat]))).draw

/-- A request of the responder: BLANK and RETIRED answer the first three only (`first`), RETIRED also measurements (`meas`); the
connection must have come to a level (R426, DSP0274). -/
def State.spdm (s : State) (chan : Nat) (etnan : Bool) (need : Nat) (first meas : Bool) (k : State → State) : State :=
  if !s.spdmOn chan etnan then s else
  let s := if etnan then s.control chan else s
  if s.sec.life = .blank && !first then s.spdmError chan etnan 0x07
  else if s.sec.life = .retired && !first && !meas then s.spdmError chan etnan 0x07
  else if s.spdmLevel chan etnan < need then s.spdmError chan etnan 0x04
  else k s

/-- Changes one SPDM session. -/
def State.modSpdm (s : State) (chan : Nat) (etnan : Bool) (sid : Nat) (g : SpdmSession → SpdmSession) : State :=
  { s with sec := { s.sec with spdm := s.sec.spdm.map fun x => if x.etnan = etnan && x.chan = chan && x.sid = sid then g x else x } }

/-- Ends one SPDM session. -/
def State.dropSpdm (s : State) (chan : Nat) (etnan : Bool) (sid : Nat) : State :=
  { s with sec := { s.sec with spdm := s.sec.spdm.filter fun x => !(x.etnan = etnan && x.chan = chan && x.sid = sid) } }

/-- A session of a channel, secured or in its handshake. -/
def State.spdmSession (s : State) (chan : Nat) (etnan : Bool) (sid : Nat) (secured : Bool) : Bool :=
  s.sec.spdm.any fun x => x.etnan = etnan && x.chan = chan && x.sid = sid && x.secured = secured

/-- GET_VERSION opens the connection anew: sessions of the channel end. -/
def execGetVersion (t chan : Nat) (etnan : Bool) (s : State) : Host.Outcome State Fault Refusal :=
  .next ((s.tick t).spdm chan etnan 0 true true fun s =>
    (({ s with sec := { s.sec with spdm := s.sec.spdm.filter fun x => !(x.etnan = etnan && x.chan = chan) } } : State).setSpdmLevel
      chan etnan 1).spdmAnswer chan etnan 0x04 [0x14])

def execGetCapabilities (t chan : Nat) (etnan : Bool) (s : State) : Host.Outcome State Fault Refusal :=
  .next ((s.tick t).spdm chan etnan 1 true true fun s =>
    (s.setSpdmLevel chan etnan (max 2 (s.spdmLevel chan etnan))).spdmAnswer chan etnan 0x61 [])

/-- The algorithms of R426 are the only ones: bit 0 ML-DSA-87, bit 1 ML-KEM-1024, bit 2 SHA-384, bit 3 AES-256-GCM; a request
that lacks one finds no common algorithm. -/
def execNegotiateAlgorithms (t chan : Nat) (etnan : Bool) (algs : Nat) (s : State) : Host.Outcome State Fault Refusal :=
  .next ((s.tick t).spdm chan etnan 2 true true fun s =>
    if algs % 16 = 15 then (s.setSpdmLevel chan etnan 3).spdmAnswer chan etnan 0x63 [15] else s.spdmError chan etnan 0x01)

def execGetDigests (t chan : Nat) (etnan : Bool) (s : State) : Host.Outcome State Fault Refusal :=
  .next ((s.tick t).spdm chan etnan 3 false false fun s => s.spdmAnswer chan etnan 0x01 [1])

/-- Only certificate slot 0 exists. -/
def execGetCertificate (t chan : Nat) (etnan : Bool) (slot : Nat) (s : State) : Host.Outcome State Fault Refusal :=
  .next ((s.tick t).spdm chan etnan 3 false false fun s =>
    if slot = 0 then s.spdmAnswer chan etnan 0x02 [0] else s.spdmError chan etnan 0x01)

def execChallenge (t chan : Nat) (etnan : Bool) (nonce : BitVec 256) (s : State) : Host.Outcome State Fault Refusal :=
  .next ((s.tick t).spdm chan etnan 3 false false fun s => s.spdmAnswer chan etnan 0x03 [0, nonce.toNat])

/-- (kind, identifier, digest) of the resident images, as R362 numbers the kinds. -/
def State.residentImages (s : State) : List (Nat × Nat × Nat) :=
  if s.mod.op ∈ [OpState.ready, .serving, .draining, .retained] then
    (s.img.models.map fun m => (1, m.img.modelId, m.digest)) ++ (s.img.vocabs.map fun m => (2, m.img.vocabId, m.digest))
      ++ (s.img.templates.map fun m => (3, m.img.templateId, m.digest))
      ++ (s.img.clists.map fun m => (4, clId m.img.header, m.digest)) ++ (s.index.live.map fun m => (5, m.img.shardId, m.digest))
  else []

/-- The input of measurement 4: kind, identifier, digest of every resident image in ascending order (R427). -/
def State.imageList (s : State) : List Byte :=
  (sortBy (fun a b => a.1 < b.1 || (a.1 = b.1 && a.2.1 ≤ b.2.1)) s.residentImages).flatMap fun x =>
    BitVec.ofNat 8 x.1 :: leBytes 4 x.2.1 ++ leBytes 48 x.2.2

/-- One measurement block (R427). Digests of the boot ROM and of the manifest are free values (log 4). -/
def State.measure (s : State) (chan : Nat) (etnan : Bool) (index : Nat) : Option Nat :=
  match index with
  | 1 => some (Config.freeDigest 1 []).toNat
  | 2 => some (match s.mod.sets[s.mod.running]? with
    | some x => (Config.freeDigest 2 [x.version, x.secVersion]).toNat
    | none => (Config.freeDigest 2 []).toNat)
  | 3 => some (s.sec.life.code + 2 ^ 8 * (DebugLevel.code s.sec.debug) + 2 ^ 16 * s.e6.toNat + 2 ^ 24 * s.power.state.code)
  | 4 => some (ofLe (sha384 s.imageList))
  | 5 => some (if etnan then 0 else lookupD s.sec.erased (chan + 1) 0)
  | _ => none

/-- GET_MEASUREMENTS: index 0 asks for their number, 0xFF for all; RETIRED answers index 3 alone (R426, DSP0274). -/
def State.measurements (s : State) (chan : Nat) (etnan : Bool) (index : Nat) : State :=
  if s.sec.life = .retired && index ≠ 3 then s.spdmError chan etnan 0x07
  else if index = 0 then s.spdmAnswer chan etnan 0x60 [5]
  else if index = 0xFF then s.spdmAnswer chan etnan 0x60 ([1, 2, 3, 4, 5].filterMap (s.measure chan etnan))
  else match s.measure chan etnan index with
    | some v => s.spdmAnswer chan etnan 0x60 [v]
    | none => s.spdmError chan etnan 0x01

def execGetMeasurements (t chan : Nat) (etnan : Bool) (index : Nat) (s : State) : Host.Outcome State Fault Refusal :=
  .next ((s.tick t).spdm chan etnan 3 false true fun s => s.measurements chan etnan index)

/-- A key exchange: a session in its handshake. -/
def execKeyExchange (t chan : Nat) (etnan : Bool) (sid : Nat) (s : State) : Host.Outcome State Fault Refusal :=
  .next ((s.tick t).spdm chan etnan 3 false false fun s =>
    let s1 := s.dropSpdm chan etnan sid
    ({ s1 with sec := { s1.sec with spdm := s1.sec.spdm ++ [⟨etnan, chan, sid, false, 0⟩] } } : State).spdmAnswer chan etnan 0x64 [sid])

/-- FINISH: the session is secured, or gone when its proof is wrong. -/
def execFinish (t chan : Nat) (etnan : Bool) (sid : Nat) (good : Bool) (s : State) : Host.Outcome State Fault Refusal :=
  .next ((s.tick t).spdm chan etnan 3 false false fun s =>
    if !s.spdmSession chan etnan sid false then s.spdmError chan etnan 0x02
    else if good then (s.modSpdm chan etnan sid fun x => { x with secured := true }).spdmAnswer chan etnan 0x65 [sid]
    else (s.dropSpdm chan etnan sid).spdmError chan etnan 0x06)

def execKeyUpdate (t chan : Nat) (etnan : Bool) (sid : Nat) (s : State) : Host.Outcome State Fault Refusal :=
  .next ((s.tick t).spdm chan etnan 3 false false fun s =>
    if !s.spdmSession chan etnan sid true then s.spdmError chan etnan 0x02
    else (s.modSpdm chan etnan sid fun x => { x with epoch := x.epoch + 1 }).spdmAnswer chan etnan 0x69 [sid])

def execSpdmHeartbeat (t chan : Nat) (etnan : Bool) (sid : Nat) (s : State) : Host.Outcome State Fault Refusal :=
  .next ((s.tick t).spdm chan etnan 3 false false fun s =>
    if !s.spdmSession chan etnan sid true then s.spdmError chan etnan 0x02 else s.spdmAnswer chan etnan 0x68 [sid])

def execEndSession (t chan : Nat) (etnan : Bool) (sid : Nat) (s : State) : Host.Outcome State Fault Refusal :=
  .next ((s.tick t).spdm chan etnan 3 false false fun s =>
    if !s.spdmSession chan etnan sid true then s.spdmError chan etnan 0x02
    else (s.dropSpdm chan etnan sid).spdmAnswer chan etnan 0x6C [sid])

/-- The vendor-defined request on a secured session of function `chan`, which may name only its own slot (R425). The answer
follows the erasure. -/
def execEraseTenantKey (t chan sid slot : Nat) (s : State) : Host.Outcome State Fault Refusal :=
  .next ((s.tick t).spdm chan false 3 false false fun s =>
    if !s.spdmSession chan false sid true then s.spdmError chan false 0x02
    else if slot ≠ chan + 1 then s.spdmError chan false 0x01
    else (s.eraseSlot slot).spdmAnswer chan false 0x7E [slot])

end Sys2Proof.Machine
end

