-- ==== Sys2Proof/Machine/Faults.lean ====
section
/-!
DEFINITION. Detections and what follows them: residue mismatches (R84, R377, R388, R393), watchdogs and crossings (R386, R387),
HBM errors (R103, R384, R385), format checks, hub SRAM, processors (R389), the end of a glint (R393).
-/
namespace Sys2Proof.Machine

/-- Faults are detected while the units run: not before phase 3 of a start, not in OFF, DARK or RETAINED. -/
def State.running (s : State) : Bool := s.mod.op = .ready || sweeping s.mod.op || (s.mod.op = .starting && 3 ≤ s.mod.phase)

/-- A detection: its time, then its effect while the units run (log 3). -/
def State.detect (s : State) (t : Nat) (k : State → State) : State :=
  let s1 := s.tick t
  if s1.running then k s1 else s1

/-! ### Cells (R84, R388, R393) -/

/-- A cell waits for a glint or is under test. -/
def State.suspect (s : State) (a : Nat) : Bool :=
  s.faults.suspects.cells.contains a || s.faults.active.any fun g => g.cells.contains a

/-- A mismatch on a cell within 1 s of one that a glint cleared as transient (R393). -/
def State.mismatchAgain (s : State) (a : Nat) : Bool :=
  !s.suspect a && (getKey s.faults.transient a).any fun t0 => s.now ≤ t0 + 1000000000

/-- A residue mismatch: what the checker compared does not agree (R83). It is counted and recorded; the hit slices run again, one
that has just ended among them (R84), the cell becomes suspect, or is fenced when it was cleared within 1 s. A ballast row's result
goes nowhere: nothing runs again (R81). -/
def State.mismatch (s : State) (a physical : Nat) (ballast : Bool) (c : ResidueCheck) (hits : List Hit) : State :=
  if residueOk c || !cellAddrOk a || s.blockFenced (cellBlock a) || s.cellDead a then s else
  let s1 : State := { s with cells := { s.cells with residue := s.cells.residue + 1 } }
  let s2 := s1.record 0x01 0 2 0 a physical .recovered 0
  let s3 := if ballast then s2
    else ((((s2.recovery 0 0 a).hitStreams hits).takeBack (cellBlock a)).redispatch (· = cellBlock a))
  let s4 := if s3.mismatchAgain a then s3.fenceCell a 0x01 .recovered 0 none
    else { s3 with faults := { s3.faults with
      suspects := { s3.faults.suspects with cells := (s3.faults.suspects.cells ++ [a]).eraseDups } } }
  { s4 with faults := { s4.faults with transient := setKey s4.faults.transient a s4.now } }

def execResidueMismatch (t cell physical : Nat) (ballast : Bool) (what : Mismatch) (s : State) :
    Host.Outcome State Fault Refusal :=
  .next (s.detect t fun s => s.mismatch cell physical ballast what.check what.hits)

/-! ### Watchdogs (R386) -/

/-- A cell hangs: fenced, the slices of its block placed again. -/
def State.cellHang (s : State) (a : Nat) (hits : List Hit) : State :=
  if !cellAddrOk a || s.blockFenced (cellBlock a) || s.cellDead a then s else
  ((((s.recovery 1 0 a).hitStreams hits).fenceCell a 0x02 .recovered 0 none)).redispatch (· = cellBlock a)

def execBlockWatchdog (t cell : Nat) (hits : List Hit) (s : State) : Host.Outcome State Fault Refusal :=
  .next (s.detect t fun s => s.cellHang cell hits)

def execStewardWatchdog (t block : Nat) (hits : List Hit) (s : State) : Host.Outcome State Fault Refusal :=
  .next (s.detect t fun s =>
    if 768 ≤ block || s.blockFenced block then s
    else ((s.recovery 2 1 block).hitStreams hits).fenceBlock block 0x03)

def execStewardHeartbeatTimeout (t region : Nat) (hits : List Hit) (s : State) : Host.Outcome State Fault Refusal :=
  .next (s.detect t fun s =>
    if 32 ≤ region || s.regionFenced region then s
    else ((s.recovery s.hpLevel 2 region).hitStreams hits).fenceRegion region 0x04)

/-- A die bridge: the loss of a compute die is contained under E6; any other loss stops service (R23, R389). -/
def State.dieBridge (s : State) (die : Nat) (hub : Bool) (hits : List Hit) : State :=
  if 4 ≤ die then s
  else if hub || !s.e6 then s.stopService 0x0F 3 die
  else if s.faults.fencedDies.contains die then s
  else (((s.recovery 3 3 die).hitStreams hits).fenceDie die 0x0F).record 0x0F s.sysLevel 5 3 die 0 .recovered 0

def execDieBridgeWatchdog (t die : Nat) (hub : Bool) (hits : List Hit) (s : State) : Host.Outcome State Fault Refusal :=
  .next (s.detect t fun s => s.dieBridge die hub hits)

/-! ### Request-pool loss (R384) -/

/-- The requests that hold a lost granule end at the next boundary. -/
def State.loseGranules (s : State) (hits : List Hit) : State :=
  { s with reqs := s.reqs.map fun r =>
      if r.gran.hbm ≠ 0 && hits.any (fun h => h.fn = r.fn && h.tag = r.tag) then { r with lostBy := 1 } else r }

/-- A hit holds a lost granule of a covered stream: the system level has the partner take it over (R384, R389). -/
def State.coveredHit (s : State) (hits : List Hit) : Bool :=
  s.reqs.any fun r => r.gen && r.covered ≠ 0 && r.gran.hbm ≠ 0 && hits.any fun h => h.fn = r.fn && h.tag = r.tag

/-- Number of lost granules of a stack: the command does not give it, so it is free where there are any. -/
def State.lostCount (s : State) (hits : List Hit) : State × Nat :=
  if hits.isEmpty then (s, 0) else (s.draw, s.drawn.toNat % 2 ^ 32)

/-! ### Crossings (R387) -/

/-- A stored image whose copy in HBM or hub SRAM is resident whole; an index's vector and passage stores are not. -/
def State.residentCopy (s : State) (id : Nat) : Bool :=
  s.img.models.any (fun m => m.imageId = id) || s.img.vocabs.any (fun m => m.imageId = id)
    || s.img.templates.any (fun m => m.imageId = id) || s.img.clists.any fun m => m.imageId = id

/-- Writes some logical blocks again elsewhere; the map follows, and their old superblocks wait for an erase (R366, R369). -/
def State.rewrite (s : State) (blocks : List Nat) : State :=
  { s with flash := blocks.foldl (fun fl b => fl.move (s.flashReaders [b]) b) s.flash }

/-- A flash target is fenced once; its bandwidth is a capacity loss. Of the images with data on it, resident ones are written
again elsewhere, the others are damaged (R369). -/
def State.fenceTarget (s : State) (k : Nat) (images : List Nat) : State :=
  if 128 ≤ k || s.flash.fencedTargets.contains k then s else
  let again := images.filter s.residentCopy
  let blocks := (s.flash.stored.filter fun x => again.contains x.id).flatMap (·.blocks)
  let s1 : State := { s with flash := { s.flash with
      fencedTargets := s.flash.fencedTargets ++ [k]
      stored := s.flash.stored.map fun x =>
        if images.contains x.id && !again.contains x.id then { x with damaged := true } else x } }
  let s2 := s1.rewrite ((s.flash.blocksIn fun b => sbTarget b = k).filter fun b => blocks.contains b || s.flash.hot.any fun o => o.2 = b)
  ((s2.record 0x0A s.pkgLevel 3 6 k 0 .recovered 0).raise 0x610009).capacityLoss

/-- Stored images with a superblock on a target. -/
def State.imagesOn (s : State) (k : Nat) : List Nat :=
  (s.flash.stored.filter fun x => s.flash.map.any fun m => x.blocks.contains m.block && sbTarget m.sb = k).map (·.id)

/-- Parts: 0 HBM PHY of a stack, 1 SerDes of a lane, 2 flash PHY of a channel, 3 CAN FD controller, 4 the timer. -/
def State.crossing (s : State) (part number : Nat) (hits : List Hit) : State :=
  let s1 := s.count 0x701009 1
  let rec_ (action ty unit : Nat) : State := s1.record 0x05 s.pkgLevel action ty unit 0 .recovered 0
  match part with
  | 0 =>
    if 24 ≤ number || s.faults.fencedStacks.contains number then s else
    let x := s1.lostCount hits
    (x.1.fenceStack number 0x05 x.2).loseGranules hits
  | 1 =>
    if !((s.port (number / 4)).lanes.getD (number % 4) {}).inService then s
    else ((rec_ 3 7 number).recovery s.pkgLevel 7 number).removeLane (number / 4) (number % 4)
  | 2 =>
    if 32 ≤ number then s
    else (List.range 4).foldl (fun s k => s.fenceTarget (4 * number + k) (s.imagesOn (4 * number + k))) (rec_ 3 6 (4 * number))
  | 3 =>
    if s.faults.canDown then s else
    let s2 := rec_ 3 8 0
    { s2 with
      faults := { s2.faults with canDown := true }
      dict := { s2.dict with
        canQueue := [], canWaiting := [], canPending := []
        sessions := s2.dict.sessions.filter fun d => d.transport ≠ .can } }
  | 4 =>
    let s2 := rec_ 0 8 0
    { s2 with faults := { s2.faults with timer := 1 - s2.faults.timer } }
  | _ => s

def execCrossingWatchdog (t part number : Nat) (hits : List Hit) (s : State) : Host.Outcome State Fault Refusal :=
  .next (s.detect t fun s => s.crossing part number hits)

/-! ### HBM errors (R103, R384, R385) -/

/-- A stripe of a model image with two lost units: stalled until it is rewritten from flash; without a sound copy there the
image is lost with what uses it. -/
def State.stripeLost (s : State) (slot channel : Nat) : State :=
  match s.model slot with
  | none => s
  | some m =>
    let sound := s.flash.stored.any fun x => x.id = m.imageId && !x.damaged
    let s1 := (s.count 0x701003 1).record 0x09 s.hpLevel 5 5 channel 0 (if sound then .recovered else .internalFault) 0
    if sound then { s1 with faults := { s1.faults with stalled := (s1.faults.stalled ++ [slot]).eraseDups } }
    else
      let s2 : State := { s1 with
        reqs := s1.reqs.map fun r => if r.gen && r.model = slot then { r with lostBy := 3 } else r
        img := { s1.img with models := s1.img.models.map fun x => if x.slot = slot then { x with old := true } else x } }
      s2.logged.prune

/-- A row of the pool is lost until it is rebuilt (R268). -/
def State.rowLost (s : State) (key : Nat) : State :=
  let lose (r : PoolRow) : PoolRow := if r.row = keyRow key then { r with lost := true } else r
  let held := s.pool.tables.any fun x => x.current && x.desc.tableId = keyTable key && x.rows.any fun r => r.row = keyRow key
  if held then ({ s with pool := { s.pool with tables := s.pool.tables.map fun x =>
      if x.current && x.desc.tableId = keyTable key then { x with rows := x.rows.map lose } else x } } : State).count 0x50100E 1
  else s

/-- Areas: 0 images (object: the model's slot), 1 sketch store (stalled as number 64 when it must be rewritten), 2 pool rows (object: the row's key), 3 request pool. -/
def State.hbmError (s : State) (stack channel area object : Nat) (twice : Bool) (granules : Nat) (hits : List Hit) : State :=
  if 24 ≤ stack || 32 ≤ channel then s else
  let c := stack * 32 + channel
  match area with
  | 0 =>
    if twice then s.stripeLost object c
    else ((s.count 0x602101 1).record 0x06 2 1 5 c 0 .recovered 0).capacityLoss
  | 1 =>
    if twice then
      let s1 := (s.count 0x701003 1).record 0x09 s.hpLevel 5 5 c 0 .recovered 0
      { s1 with faults := { s1.faults with stalled := (s1.faults.stalled ++ [64]).eraseDups } }
    else (((s.count 0x602101 1).record 0x06 2 1 5 c 0 .recovered 0).capacityLoss).resweep
  | 2 => (s.record 0x06 2 0 5 c 0 .recovered 0).rowLost object
  | 3 =>
    let s1 := s.record 0x06 2 5 5 c 0 .internalFault granules
    (if s.coveredHit hits then s1.record 0x06 s.sysLevel 8 5 c 0 .failedOver granules else s1).loseGranules hits
  | _ => s

def execHbmUncorrectable (t stack channel area object : Nat) (twice : Bool) (granules : Nat) (hits : List Hit) (s : State) :
    Host.Outcome State Fault Refusal :=
  .next (s.detect t fun s => s.hbmError stack channel area object twice granules hits)

/-- Reads of a rewritten stripe resume (R385). -/
def execStripeRewriteDone (t model : Nat) (s : State) : Host.Outcome State Fault Refusal :=
  let s1 := s.tick t
  .next { s1 with faults := { s1.faults with stalled := s1.faults.stalled.filter (· ≠ model) } }

/-! ### Format checks, hub SRAM, processors (R386, R388, R389) -/

def execFormatCheckFault (t block : Nat) (c : FormatCheck) (s : State) : Host.Outcome State Fault Refusal :=
  .next (s.detect t fun s => if 768 ≤ block then s else s.formatFault block c)

def execHubSramError (t : Nat) (correctable : Bool) (s : State) : Host.Outcome State Fault Refusal :=
  let s1 := s.tick t
  .next (if !s1.hubRuns then s1
    else if correctable then s1.record 0x12 s1.pkgLevel 1 8 0 0 .recovered 0
    else s1.stopService 0x12 8 0)

/-- Processors are numbered 0..5 in the order of R15. -/
def execProcessorFault (t processor : Nat) (s : State) : Host.Outcome State Fault Refusal :=
  let s1 := s.tick t
  .next (if !s1.hubRuns || 6 ≤ processor then s1 else s1.stopService 0x13 8 0)

/-! ### The end of a glint (R393) -/

/-- The outcome of one suspect of a glint. When its references disagree, they and it are suspects, which a new glint tests against fresh
references. -/
def State.glintOutcome (g : Glint) (s : State) (o : GlintOutcome) : State :=
  let no := s.faults.glintNo
  if !o.refsAgree then
    let refs := (g.refs.filter fun r => r.unit = o.unit && r.isLane = o.isLane).flatMap fun r => [r.a, r.b]
    let again : Glint := if o.isLane then ⟨refs, [o.unit], []⟩ else ⟨o.unit :: refs, [], []⟩
    let up := again.cells.filter fun a => cellAddrOk a && !s.blockFenced (cellBlock a) && !s.cellDead a
    { s with faults := { s.faults with suspects := {
        cells := (s.faults.suspects.cells ++ up).eraseDups
        lanes := (s.faults.suspects.lanes ++ again.lanes).eraseDups } } }
  else if o.differs then
    (if o.isLane then s.fenceLane o.unit no else s.fenceCell o.unit 0x10 .internalFault no (some 3)).count 0x70100C 1
  else
    (s.count 0x70100D 1).record 0x10 s.hpLevel 0 (if o.isLane then 10 else 0) o.unit (if o.isLane then 0 else s.physOf o.unit)
      .done no

/-- The glint under way ends: its suspects are fenced, cleared or tested again. Suspects without an outcome still wait for
one. -/
def State.glintEnd (s : State) (outcomes : List GlintOutcome) : State :=
  match s.faults.active with
  | none => s
  | some g =>
    let tested (o : GlintOutcome) : Bool := if o.isLane then g.lanes.contains o.unit else g.cells.contains o.unit
    let done := outcomes.filter tested
    let open_ (lane : Bool) (u : Nat) : Bool := !done.any fun o => o.isLane = lane && o.unit = u
    let s1 : State := { s with faults := { s.faults with
      active := none
      suspects := { cells := g.cells.filter (open_ false) ++ s.faults.suspects.cells
                    lanes := g.lanes.filter (open_ true) ++ s.faults.suspects.lanes } } }
    done.foldl (State.glintOutcome g) s1

def execGlintDone (t : Nat) (outcomes : List GlintOutcome) (s : State) : Host.Outcome State Fault Refusal :=
  .next ((s.tick t).glintEnd outcomes)

end Sys2Proof.Machine
end

