-- ==== Sys2Proof/Machine/Flash.lean ====
section
/-!
DEFINITION. Flash media: the ends of reads and writes, failing targets and superblocks, merges and erases (R362, R365..R369, R371,
R373), sketch chunks reloaded after the loss of a die (R141).
-/
namespace Sys2Proof.Machine

/-! ### Reads (R366, R368, R373) -/

/-- A vector or passage read belongs to the stage a request is in, or was issued ahead of it (R152, R153, R159). -/
def readsFor (r : Request) (passage : Bool) : Bool := if passage then r.work.stage = 11 else r.work.stage ≤ 8

/-- A read unit decodes: counted; delivered to its request unless its key is gone. -/
def State.readDone (s : State) (f tag ord : Nat) (passage : Bool) (channel : Nat) (retried : Bool) : State :=
  if 32 ≤ channel || s.mod.op = .off then s else
  let s1 := s.count ((if retried then 0x611101 else 0x611001) + channel) 1
  let gone := (s.readFrom f tag).isNone
  s1.modReq f tag fun r =>
    if !readsFor r passage || r.work.lostOrds.contains ord then r
    else if gone then { r with work := { r.work with lostOrds := r.work.lostOrds ++ [ord] } }
    else { r with work := { r.work with readOrds := (ord :: r.work.readOrds).eraseDups } }

def execFlashReadDone (t f tag ord : Nat) (passage : Bool) (channel : Nat) (retried : Bool) (s : State) :
    Host.Outcome State Fault Refusal :=
  .next ((s.tick t).readDone f tag ord passage channel retried)

/-- The valid units of a lost unit's superblock are relocated; which of the image's superblocks on the channel held it is free. -/
def State.relocate (s : State) (blocks : List Nat) (channel : Nat) : State :=
  let ms := s.flash.map.filter fun m => blocks.contains m.block && sbTarget m.sb / 4 = channel
  match ms[s.drawn.toNat % ms.length]? with
  | none => s
  | some m => s.draw.rewrite [m.block]

/-- A charged read that has not decoded within T_FR is lost for its request. -/
def State.readTimeout (s : State) (f tag ord : Nat) (passage : Bool) (channel : Nat) : State :=
  if 32 ≤ channel || s.mod.op = .off then s else
  match s.req f tag with
  | none => s
  | some r =>
    if !readsFor r passage || r.work.readOrds.contains ord || r.work.lostOrds.contains ord then s else
    let blocks := (s.readFrom f tag).elim [] (·.blocks)
    (((s.count (0x611201 + channel) 1).modWork f tag fun k => { k with lostOrds := k.lostOrds ++ [ord] })).relocate blocks channel

def execFlashReadTimeout (t f tag ord : Nat) (passage : Bool) (channel : Nat) (s : State) : Host.Outcome State Fault Refusal :=
  .next ((s.tick t).readTimeout f tag ord passage channel)

/-! ### Failing units (R369) -/

def execFlashTargetFault (t target : Nat) (images : List Nat) (s : State) : Host.Outcome State Fault Refusal :=
  .next (s.detect t fun s =>
    if 128 ≤ target || s.flash.fencedTargets.contains target then s
    else (s.recovery s.pkgLevel 6 target).fenceTarget target images)

/-- A superblock that fails a program or an erase is retired whole; its data is written elsewhere. -/
def State.retireSb (s : State) (sb : Nat) : State :=
  if 325504 ≤ sb || s.flash.retired.contains sb || s.mod.op = .off then s else
  let s1 : State := { s with flash := { s.flash with
    retired := s.flash.retired ++ [sb], erasing := s.flash.erasing.filter (· ≠ sb), clean := false } }
  let s2 := s1.rewrite (s.flash.blocksIn fun b => b = sb)
  ({ s2 with flash := { s2.flash with media := s2.flash.media.filter fun m => m.sb ≠ sb } } : State).raise 0x610004

def execFlashProgramFail (t superblock : Nat) (s : State) : Host.Outcome State Fault Refusal :=
  .next ((s.tick t).retireSb superblock)

/-! ### Writes (R362, R371) -/

/-- Every page of a KEEP is programmed: the image is stored under its IMAGE_ID (R136, R236, R362). -/
def State.writeDone (s : State) (f tag : Nat) : State :=
  match s.req f tag with
  | none => s
  | some r =>
    match r.load with
    | none => s
    | some l =>
      if !l.keep || l.stored then s else
      let x := s.store l.image f
      let s1 := x.1.modLoad f tag fun l => { l with stored := true, imageId := x.2 }
      { s1 with index := { s1.index with pub := s1.index.pub.map fun p =>
          if p.fn = f && p.tag = tag then { p with stored := true, imageId := x.2 } else p } }

def execFlashWriteDone (t f tag : Nat) (s : State) : Host.Outcome State Fault Refusal := .next ((s.tick t).writeDone f tag)

/-! ### Merges and erases (R365..R367) -/

/-- A logical block's newest copies are in a fresh superblock: the map entry switches, the old superblocks wait for their erase. -/
def State.merge (s : State) (logical fresh : Nat) : State :=
  if partBlocks s.mod.part24 ≤ logical || 325504 ≤ fresh || s.sbUsed.contains fresh || s.mod.op = .off then s else
  ({ s with flash := s.flash.moveTo (s.flashReaders [logical]) logical fresh } : State).count 0x61000C 1

def execLogSuperblockMerge (t logical fresh : Nat) (s : State) : Host.Outcome State Fault Refusal :=
  .next ((s.tick t).merge logical fresh)

/-- A read that was under way in a superblock before its map entry switched remains outstanding (R366). -/
def State.stillRead (s : State) (sb : Nat) : Bool :=
  s.flash.oldReads.any fun o => o.1 = sb && (s.req o.2.1 o.2.2).any (·.readsFlash)

/-- A superblock that no map entry names, and that no read from before its switch still needs, is erased: one more cycle; one of the
COLD blocks may move to a worn superblock (R366, R367, R374, R375). -/
def State.eraseSb (s : State) (sb : Nat) : State :=
  if 325504 ≤ sb || s.flash.retired.contains sb || s.flash.map.any (fun m => m.sb = sb) || s.flash.logs.any (fun l => l.2 = sb)
    || s.stillRead sb || s.mod.op = .off then s else
  let n := lookupD s.flash.cycles sb 0 + 1
  let fl : FlashState := { s.flash with
    media := s.flash.media.filter fun m => m.sb ≠ sb, erasing := s.flash.erasing.filter (· ≠ sb)
    oldReads := s.flash.oldReads.filter fun o => o.1 ≠ sb, cycles := setKey s.flash.cycles sb n }
  let s1 : State := { s with flash := fl.wearMove.elim fl fun p => fl.moveTo (s.flashReaders [p.1]) p.1 p.2 }
  if s1.wear ≠ s.wear then s1.raise 0x610006 else s1

def execSuperblockErase (t superblock : Nat) (s : State) : Host.Outcome State Fault Refusal :=
  .next ((s.tick t).eraseSb superblock)

/-! ### Sketch chunks of a lost die (R141) -/

/-- The chunks are swept again, spread over the remaining lanes; the period may lengthen (R139, R140). -/
def State.reloaded (s : State) (die : Nat) : State :=
  if s.faults.fencedDies.contains die then
    ({ s with sweep := { s.sweep with unswept := s.sweep.unswept.filter fun l => l / 8 ≠ die } } : State).resweep
  else s

def execSketchReloadDone (t die : Nat) (s : State) : Host.Outcome State Fault Refusal := .next ((s.tick t).reloaded die)

end Sys2Proof.Machine
end

