-- ==== Sys2Proof/Machine/Power.lean ====
section
/-!
DEFINITION. Supply, reset pin, cadence, sensors, coolant, time pulse (R16..R18, R48, R397..R399, R412..R418, R437..R442, R447,
R374).
-/
namespace Sys2Proof.Machine

/-! ### Supply and MOD_RESET_N (R397, R412, R438, R441) -/

/-- The bus carries a start: above the turn-on threshold, below input protection (R412, R443; log 77). -/
def State.busGood (s : State) : Bool := 44000 ≤ s.power.mv && s.power.mv ≤ 62000

/-- Power is applied from OFF: THERM_TRIP_N rises, P4 ends, and a start begins unless MOD_RESET_N is held low. -/
def State.powered (s : State) (mv : Nat) : State :=
  if s.mod.op ≠ .off then s else
  let s1 : State := { s with
    power := { s.power with mv := mv, state := .p0 }
    pins := { s.pins with thermTripN := true } }
  if s1.mod.heldReset || !s1.busGood then s1.alert else s1.powerStart

def execPowerApplied (t mv : Nat) (s : State) : Host.Outcome State Fault Refusal := .next ((s.tick t).powered mv)

/-- A recognised assertion: counted, the rails off, THERM_TRIP_N released (R438, R441, R450). -/
def State.resetLow (s : State) : State :=
  let s1 := s.railsOff
  { s1 with
    mod := { s1.mod with heldReset := true, resets := s.mod.resets + 1 }
    pins := { s1.pins with thermTripN := true } }

def execModResetAssert (t : Nat) (s : State) : Host.Outcome State Fault Refusal := .next (s.tick t).resetLow

/-- A recognised release: a start begins, unless a junction reads 100 °C or more. -/
def State.resetHigh (s : State) (hottest : Nat) : State :=
  let s1 : State := { s with mod := { s.mod with heldReset := false } }
  if s.mod.op ≠ .off then s1
  else if 100000 ≤ hottest then { s1 with pins := { s1.pins with thermTripN := false } }
  else if s1.busGood then s1.powerStart else s1

def execModResetRelease (t hottestMilli : Nat) (s : State) : Host.Outcome State Fault Refusal :=
  .next ((s.tick t).resetHigh hottestMilli)

/-- A REQUEST frame with the module's NODE wakes it from P4, unanswered (R415). -/
def State.woken (s : State) (ident : Nat) : State :=
  if s.power.state = .p4 && !s.mod.heldReset && s.busGood && s.canOn && ident = 0x180 + s.inForce 0x103001 then s.powerStart else s

def execP4WakeFrame (t ident : Nat) (s : State) : Host.Outcome State Fault Refusal := .next ((s.tick t).woken ident)

/-- Above 62 V for 100 µs. -/
def execBusOvervoltage (t : Nat) (s : State) : Host.Outcome State Fault Refusal :=
  let s1 := (s.tick t).railsOff
  .next ({ s1 with power := { s1.power with mv := max s.power.mv 62001 } } : State).alert

/-- The bus enters 59.5..62 V: counted and evented. -/
def State.busHigh (s : State) (mv : Nat) : State :=
  if s.mod.op = .off then ({ s with power := { s.power with mv := mv } } : State).alert else
  let s1 : State := { s with power := { s.power with mv := mv, high := true, sag := false } }
  (if s.power.high then s1 else s1.countRaise 0x90000D 1).alert

def execBusHighBand (t mv : Nat) (s : State) : Host.Outcome State Fault Refusal := .next ((s.tick t).busHigh mv)

/-- The bus is back in the normal band (R440). -/
def State.busNormal (s : State) (mv : Nat) : State :=
  let s1 : State := { s with power := { s.power with mv := mv, high := decide (59500 < mv), sag := decide (mv < 46000) } }
  s1.alert

def execBusHighBandExit (t mv : Nat) (s : State) : Host.Outcome State Fault Refusal := .next ((s.tick t).busNormal mv)

/-- The bus falls below 46 V: counted; the pacers' effect shows in the cadence windows (R413). -/
def State.busSagged (s : State) (mv : Nat) : State :=
  if s.mod.op = .off then ({ s with power := { s.power with mv := mv } } : State).alert else
  let s1 : State := { s with power := { s.power with mv := mv, sag := true, high := false } }
  (if s.power.sag then s1 else s1.count 0x90000A 1).alert

def execBusSag (t mv : Nat) (s : State) : Host.Outcome State Fault Refusal := .next ((s.tick t).busSagged mv)

/-- The bus rises again. -/
def execBusSagEnd (t mv : Nat) (s : State) : Host.Outcome State Fault Refusal := .next ((s.tick t).busNormal mv)

/-- Below 40 V for 50 µs. -/
def execBusUndervoltage (t : Nat) (s : State) : Host.Outcome State Fault Refusal :=
  let s1 := (s.tick t).railsOff
  .next ({ s1 with power := { s1.power with mv := min s.power.mv 39999 } } : State).alert

/-! ### Cadence and dimming (R16..R18, R48) -/

/-- Dimming, whose budget the package level arbitrates, as a second fault (R22, R48, R379). -/
def State.doubleFault (s : State) : State := (s.count 0x701003 1).record 0x14 s.pkgLevel 0 8 0 0 .done 0

/-- New per-region values: the pacer's limit holds, a fenced region reads 0; deep dimming begins, deepens or ends; the
rail follows while a region works and keeps its last point while none does (R17, R415). -/
def State.setCadence (s : State) (l : List Nat) : State :=
  let vals := (List.range 32).map fun r => if s.regionFenced r then 0 else min 2000 (l.getD r 0)
  let s0 := if vals.all (· = 0) then s else s.setRail
  let s1 : State := { s0 with power := { s0.power with cadence := vals, idle := s.power.idle && vals.all (· = 0) } }
  let c := s1.lowCadence
  let s2 := if s1.power.idle = s.power.idle then s1 else s1.settlePower
  if c = 0 then s2
  else if 1600 ≤ c then { s2 with power := { s2.power with deepDim := false } }
  else if !s.power.deepDim then
    let s3 := ({ s2 with power := { s2.power with deepDim := true } } : State).countRaise 0x90000B 1
    if s.faultRuns then s3.doubleFault else s3
  else if c < s.power.dimLow then
    ({ s2 with power := { s2.power with dimLow := c } } : State).doubleFault
  else s2

/-- The stewards' counts of the last 1 µs window, in 10^6 handshakes per second. -/
def execCadenceWindow (t : Nat) (counts : List Nat) (s : State) : Host.Outcome State Fault Refusal :=
  let s1 := s.tick t
  .next (if sweeping s1.mod.op then s1.setCadence counts else s1)

/-- A local droop paces one region. -/
def execDroopDetect (t region cadence : Nat) (s : State) : Host.Outcome State Fault Refusal :=
  let s1 := s.tick t
  .next (if sweeping s1.mod.op && region < 32 then
    s1.setCadence (modAt s1.power.cadence region fun _ => cadence) else s1)

/-- No handshake in any region for 1 ms (R415). -/
def execIdleEntry (t : Nat) (s : State) : Host.Outcome State Fault Refusal :=
  let s1 := s.tick t
  .next (if sweeping s1.mod.op then ({ s1 with power := { s1.power with idle := true } } : State).settlePower else s1)

/-! ### Temperatures (R418, R374) -/

/-- The greatest of a list. -/
def hottest (l : List Int) : Int := l.tail.foldl max (l.headD 0)

/-- Thermal shutdown: steps 1 and 2 of R390, then P4 (R418). -/
def State.thermalOff (s : State) : State := if s.mod.op = .off then s else s.failAll.enterP4

/-- Hardware trip: rails off, THERM_TRIP_N low, counted (R418, R441, R450). -/
def State.tripped (s : State) : State :=
  if s.mod.op = .off then s else
  let s1 := (s.count 0x900011 1).railsOff
  { s1 with pins := { s1.pins with thermTripN := false } }

/-- Sensors at or above warning: compute dies 0.., hub 64, stacks 100.., flash targets 200.. . -/
def warnings (compute : List Int) (hub : Int) (hbmTemps flash : List Int) : List Nat :=
  let above (base : Nat) (limit : Int) (l : List Int) : List Nat :=
    (l.zipIdx.filter fun p => limit ≤ p.1).map fun p => base + p.2
  above 0 100000 compute ++ above 64 100000 [hub] ++ above 100 90000 hbmTemps ++ above 200 80000 flash

/-- A sample of every sensor, in m°C: each sensor's rise to its warning is counted and evented; 120 °C trips the hardware. -/
def State.sample (s : State) (compute : List Int) (hub : Int) (hbmTemps flash : List Int) : State :=
  if s.mod.op = .off then s else
  let w := warnings compute hub hbmTemps flash
  let fresh := w.filter fun i => !s.power.warned.contains i
  let j := hottest (hub :: compute)
  let s1 : State := { s with power := { s.power with junction := j, stackTemp := hottest hbmTemps, warned := w } }
  let s2 := (fresh.foldl (fun s _ => s.countRaise 0x90000C 1) s1).alert
  if 120000 ≤ j then s2.tripped else s2

def execThermalSample (t : Nat) (compute : List Int) (hub : Int) (hbmTemps flash : List Int) (s : State) :
    Host.Outcome State Fault Refusal :=
  .next ((s.tick t).sample compute hub hbmTemps flash)

def execThermalShutdown (t : Nat) (s : State) : Host.Outcome State Fault Refusal := .next (s.tick t).thermalOff

def execHardwareTrip (t : Nat) (s : State) : Host.Outcome State Fault Refusal := .next (s.tick t).tripped

/-- The minute's hottest flash target, in m°C, enters the temperature history (R374). -/
def execTempHistoryMinute (t : Nat) (hot : Int) (s : State) : Host.Outcome State Fault Refusal :=
  let s1 := s.tick t
  let b := min 63 (hot / 2000).toNat
  .next (if s1.mod.op = .off then s1 else
    { s1 with flash := { s1.flash with tempHistory := setKey s1.flash.tempHistory b (lookupD s1.flash.tempHistory b 0 + 1) } })

/-! ### Coolant (R440, R447) -/

/-- New readings: each fall of the flow and each rise of the inlet beyond its limit is counted and evented. -/
def State.coolant (s : State) (flow : Nat) (inlet : Int) : State :=
  if s.mod.op = .off then s else
  let low := decide (flow < 6000)
  let high := decide (45000 < inlet)
  let n := (low && !s.power.flowLow).toNat + (high && !s.power.inletHigh).toNat
  let s1 : State := { s with power := { s.power with flow := flow, inlet := inlet, flowLow := low, inletHigh := high } }
  ((List.range n).foldl (fun s _ => s.countRaise 0x900010 1) s1).alert

def execCoolantWarning (t flow : Nat) (inlet : Int) (s : State) : Host.Outcome State Fault Refusal :=
  .next ((s.tick t).coolant flow inlet)

/-- Flow below 3.0 L/min for 1 s: a thermal shutdown. -/
def execCoolantLowFlow (t flow : Nat) (s : State) : Host.Outcome State Fault Refusal :=
  let s1 := (s.tick t).coolant flow s.power.inlet
  .next (if flow < 3000 then s1.thermalOff else s1)

/-- The readings are back inside their limits. -/
def execCoolantRestored (t flow : Nat) (inlet : Int) (s : State) : Host.Outcome State Fault Refusal :=
  .next ((s.tick t).coolant flow inlet)

/-! ### PPS_OUT (R442) -/

/-- PPS_OUT follows the second while the time base is held, and is low otherwise. -/
def execPpsOutPulse (t : Nat) (level : Bool) (s : State) : Host.Outcome State Fault Refusal :=
  let s1 := s.tick t
  .next { s1 with pins := { s1.pins with ppsOut := level && s1.timeHeld && decide (s1.mod.op ≠ .off) } }

end Sys2Proof.Machine
end

