-- ==== Sys2Proof/Machine/DictValues.lean ====
section
/-!
DEFINITION. What an entry of the object dictionary reads as: mirrors of other state, counters and stored values, BLOBs (R16,
R57, R98, R101, R105, R143, R173, R204, R239, R270, R308, R309, R332, R337, R353, R356, R357, R362, R375, R394, R396, R411, R434,
R450).
-/
namespace Sys2Proof.Machine

/-! ### Integers -/

/-- States that hold no value for what a started module serves with (R356). -/
def State.quiet (s : State) : Bool := s.mod.op ∈ [OpState.off, .dark, .starting]

/-- The entry mirrors what only a started module has (R356). -/
def startedOnly (key : Nat) : Bool :=
  let i := key / 256
  let sub := key % 256
  (i = 0x3000 && 2 ≤ sub && sub ≤ 5) || i = 0x3010 || (i = 0x4000 && sub ≤ 6) || i = 0x4100 || key = 0x420005 || i = 0x4300
    || key = 0x500008 || key = 0x50000A

/-- The entry is a cadence: no value while the compute dies do not run (R16, R356). -/
def isCadence (key : Nat) : Bool := key = 0x900002 || key / 256 = 0x9010

/-- Share of a ledger's capacity that LC work has charged now, in 1/10,000 (R57); 0xFFFF at most (log 101). -/
def useOf (load cap : Nat × Nat) : Nat :=
  if load.1 = 0 then 0 else if cap.1 = 0 then 0xFFFF else min 0xFFFF (load.1 * cap.2 * 10000 / (load.2 * cap.1))

/-- Ledger use of one ledger. -/
def State.ledgerUse (s : State) (l : Ledger) : Nat :=
  match l with
  | .slate => useOf (s.booked s.sweep.nextNo, 1) (s.cap .slate)
  | _ => useOf (s.load l (s.unitOf l s.now)) (s.cap l)

/-- The ledgers of 0x2000:0x10..0x16, in order. -/
def ledgerOrder : List Ledger := [.handshakes, .genBytes, .tblBytes, .slate, .flash, .text, .handoff]

/-- An I32 as the unsigned value of its bits (R334). -/
def i32 (v : Int) : Nat := (v % 2 ^ 32).toNat

/-- Entries 0x1000..0x1FFF. -/
def State.value1 (s : State) (key : Nat) : Nat :=
  match key with
  | 0x100003 => if s.mod.part24 then 24000000000000 else 12000000000000
  | 0x100005 => s.mod.board.toNat
  | 0x100006 => (s.mod.sets[s.mod.running]?).elim 0 (·.version)
  | 0x102005 => s.mod.stateSince
  | 0x104001 => s.mod.phase
  | 0x104002 => s.mod.warmFails
  | 0x104003 => s.mod.coldFails
  | 0x104004 => s.mod.lastReason
  | 0x104008 => s.mod.hbmRetained.toNat
  | 0x104009 => s.mod.startCount
  | 0x105001 => s.mod.slot
  | 0x105002 => s.mod.resets
  | 0x110001 => if s.host.vfEnable then s.host.numVfs else 0
  | _ => s.evented key

/-- Entries 0x2000..0x2FFF. -/
def State.value2 (s : State) (key : Nat) : Nat :=
  if key = 0x200005 then s.adm.epoch.toNat
  else if 0x200010 ≤ key ∧ key ≤ 0x200016 then s.ledgerUse (ledgerOrder.getD (key - 0x200010) .handshakes)
  else if key = 0x200017 then (if s.pair.state = .paired then s.ledgerUse .mirror else 0)
  else s.entry key

/-- Entries 0x3010: the current index version, and whether an earlier one is live. -/
def State.indexValue (s : State) (sub : Nat) : Nat :=
  let old := (s.index.live.drop 1).head?
  match s.index.live.head? with
  | none => odDefault (0x301000 + sub)
  | some v => match sub with
    | 1 => v.img.version
    | 2 => old.elim 0 (·.img.version)
    | 3 => old.isSome.toNat
    | 4 => v.img.format
    | 5 => v.img.recordCount
    | 6 => v.img.shardId
    | 7 => v.img.member * 65536 + v.img.members
    | _ => quotaOf v.img

/-- Entries 0x3000..0x3FFF. -/
def State.value3 (s : State) (key : Nat) : Nat :=
  if key = 0x300002 then s.sweep.running.elim s.sweep.nextNo (·.no)
  else if key = 0x300003 then s.sweep.origin
  else if key = 0x300004 then (s.index.live.head?).elim 0 fun v => s.sweepBound v.img s.adm.bSweep
  else if key / 256 = 0x3010 then s.indexValue (key % 256)
  else s.entry key

/-- Vocabulary in a slot. -/
def State.vocabAt (s : State) (k : Nat) : Nat := (s.img.vocabs.find? fun v => v.slot = k).elim 0 (·.img.vocabId)

/-- Swaps accepted and not begun (R237). -/
def State.swapsWaiting (s : State) : Nat := (s.reqs.filter fun r => r.op = 0x21 && !r.started).length

/-- Entries 0x4000..0x4FFF. -/
def State.value4 (s : State) (key : Nat) : Nat :=
  match key with
  | 0x400001 => s.img.vocabs.length
  | 0x400002 => s.vocabAt 0
  | 0x400003 => s.vocabAt 1
  | 0x400004 => s.vocabAt 2
  | 0x400005 => s.vocabAt 3
  | 0x400006 => s.img.clists.length
  | 0x410001 => s.img.templates.length
  | 0x410002 => s.granFree.hub * 4096
  | 0x420005 => s.step.no
  | 0x420006 => s.seqUsed
  | 0x430001 => s.img.models.length
  | 0x430002 => cellSpace - s.cellsUsed 0
  | 0x430003 => s.swapsWaiting
  | _ => s.entry key

/-- Cycles of every superblock over their number (0x6100:0x08). -/
def State.averageCycles (s : State) : Nat := (s.flash.cycles.map (·.2)).sum / 325504

/-- Entries 0x5000..0x6FFF. -/
def State.value56 (s : State) (key : Nat) : Nat :=
  if 0x602001 ≤ key ∧ key ≤ 0x602010 then (s.pools.areas.getD ((key - 0x602001) / 4) []).getD ((key - 0x602001) % 4) 0
  else match key with
  | 0x500008 => s.pool.epoch.toNat
  | 0x50000A => s.pool.descs.length
  | 0x601003 => 58980 - s.entry 0x601001 - s.entry 0x601002
  | 0x601101 => s.granFree.hbm
  | 0x601102 => s.granFree.region
  | 0x601103 => s.granFree.block
  | 0x601104 => s.granFree.hub
  | 0x601105 => s.seqFree
  | 0x601106 => s.scanOrder.length
  | 0x610001 => s.blocksFree
  | 0x610005 => s.flash.retired.length
  | 0x610008 => s.averageCycles
  | 0x613001 => s.flash.stored.length
  | _ => s.evented key

/-- The lowest cadence among the regions in service (R16). -/
def State.moduleCadence (s : State) : Nat :=
  match ((List.range 32).filter fun r => !s.regionFenced r).map fun r => s.power.cadence.getD r 0 with
  | [] => 0
  | c :: cs => cs.foldl min c

/-- The limit in watts that the bus voltage sets, P_lim of R412. -/
def busLimit (mv : Nat) : Nat :=
  if mv < 40000 || 62000 < mv then 0
  else if mv < 44000 then 650 * (mv - 40000) / 1000
  else if mv < 46000 then 2600 + 300 * (mv - 44000) / 1000
  else 4000

/-- The most that the mean of the input power over 1 ms can be: the draw of the power state (R415), else the lower of P_lim and the cap,
which below 3,200 W allows no peak (R412, R413, R417). -/
def State.powerLimit (s : State) : Nat :=
  match s.power.state with
  | .p4 => 15
  | .p3 => 400
  | .p2 => 900
  | _ => min (busLimit s.power.mv) (if s.entry 0x900003 < 3200 then s.entry 0x900003 else 4000)

/-- Entries 0x7000..0x9FFF. The input power, a mean over the last 1 ms, is a free value within its limit (log 75). -/
def State.value789 (s : State) (key : Nat) : Nat :=
  if key / 256 = 0x9010 then (if s.regionFenced (key % 256 - 1) then 0 else s.power.cadence.getD (key % 256 - 1) 0)
  else match key with
  | 0x800007 => s.mod.fuse
  | 0x800008 => s.sec.expiry
  | 0x900002 => s.moduleCadence
  | 0x900006 => s.power.mv
  | 0x900007 => s.drawn.toNat % (s.powerLimit + 1)
  | 0x900008 => i32 s.power.junction
  | 0x900009 => i32 s.power.stackTemp
  | 0x90000E => i32 s.power.inlet
  | 0x90000F => s.power.flow
  | _ => s.evented key

/-- Ports in service, bit p for port p. -/
def State.portBits (s : State) : Nat := (s.fab.ports.zipIdx.map fun p => if p.1.inService then 2 ^ p.2 else 0).sum

/-- Lanes in service, bit l for lane l. -/
def State.laneBits (s : State) : Nat := (s.fab.ports.zipIdx.map fun p => laneMask p.1 * 16 ^ p.2).sum

/-- Entries 0xA000..0xAFFF. -/
def State.valueA (s : State) (key : Nat) : Nat :=
  match key with
  | 0xA00002 => s.fab.ident
  | 0xA00003 => s.portBits
  | 0xA00004 => s.laneBits
  | 0xA00005 => s.fab.epoch.toNat
  | 0xA00006 => (s.fab.sessions.filter fun x => x.state = .opened).length
  | 0xA00008 => i32 s.ptp.offset
  | _ => s.evented key

/-- Present value of an integer entry, as an unsigned number. -/
def State.intValue (s : State) (key : Nat) : Nat :=
  if (s.quiet && startedOnly key) || (isCadence key && !sweeping s.mod.op) then odDefault key
  else match key / 2 ^ 20 with
  | 1 => s.value1 key
  | 2 => s.value2 key
  | 3 => s.value3 key
  | 4 => s.value4 key
  | 5 => s.value56 key
  | 6 => s.value56 key
  | 0xA => s.valueA key
  | _ => s.value789 key

/-! ### BLOBs and strings -/

/-- A string of ASCII characters as bytes. -/
def ascii (x : String) : List Byte := x.toList.map fun c => BitVec.ofNat 8 c.toNat

/-- Without the zero bytes at the end. -/
def trimZeros (bs : List Byte) : List Byte := (bs.reverse.dropWhile (· = 0)).reverse

/-- Directory entry of a stored image (R362). -/
def storedEntry (x : Stored) : Nat :=
  let k : Nat × Nat × Nat := match x.image.img with
    | .model m => (1, m.modelId, 0)
    | .vocab v => (2, v.vocabId, 0)
    | .template m => (3, m.templateId, 0)
    | .clist c => (4, clId c.header, 0)
    | .index i => (5, i.shardId, i.version)
    | .table _ => (0, 0, 0)
    | .rangeMap _ => (0, 0, 0)
  x.at_ % 2 ^ 64 * 2 ^ 192 + x.image.bytes % 2 ^ 64 * 2 ^ 128 + k.2.2 % 2 ^ 16 * 2 ^ 96 + k.2.1 % 2 ^ 32 * 2 ^ 64
    + x.fn % 2 ^ 8 * 2 ^ 40 + k.1 * 2 ^ 32 + x.id % 2 ^ 32

/-- Codes of a partner entry's STATE (R309). -/
def SessState.code : SessState → Nat
  | .free => 0 | .opening => 1 | .opened => 2 | .closing => 3

/-- A partner entry (R309). -/
def State.partnerEntry (s : State) (x : Session) : Nat :=
  x.ident % 2 ^ 32 * 2 ^ 224 + x.lsess % 2 ^ 16 * 2 ^ 208 + x.rsess % 2 ^ 16 * 2 ^ 192 + x.pathNs % 2 ^ 32 * 2 ^ 160
    + x.state.code * 2 ^ 152 + s.rolesOf x % 2 ^ 8 * 2 ^ 144 + (s.routedTo x.idx).length % 2 ^ 16 * 2 ^ 128
    + x.lastRx % 2 ^ 64 * 2 ^ 64 + (if x.state = .opening then 0 else x.openedAt % 2 ^ 64)

/-- One word of the fence map (0x7000:0x06). -/
def State.fenceBits (s : State) (b : Nat) : Nat := (s.fenceWord b).toNat + (s.blockFenced b).toNat * 2 ^ 31

/-- RECORD_NO of a fault record (R394). -/
def recordNo (w : BitVec 256) : Nat := bits w.toNat 127 96

/-- Value of a BLOB or string entry for a session whose select entries hold `sel`; a status where there is none. -/
def State.blobValue (s : State) (sel : Nat → Nat) (key : Nat) : Except Status (List Byte) :=
  match key with
  | 0x100002 => .ok (ascii (if s.mod.part24 then "FDY-B9-1536-24" else "FDY-B9-1536-12"))
  | 0x100004 => .ok (trimZeros (leBytes 32 s.mod.serial.toNat))
  | 0x420008 =>
    let e := s.slot (sel 0x420007)
    .ok (leBytes 64 (({ e with seed := 0, last := 0 } : SeqEntry).encode))
  | 0x612001 => .ok ((List.range 64).flatMap fun i => leBytes 4 (lookupD s.flash.tempHistory i 0))
  | 0x613003 => match s.flash.stored.find? fun x => x.id = sel 0x613002 with
    | some x => .ok (leBytes 32 (storedEntry x))
    | none => .error .unknownObject
  | 0x700003 => match s.faults.records.find? fun w => recordNo w = sel 0x700002 with
    | some w => .ok (leBytes 32 w.toNat)
    | none => .error .unknownObject
  | 0x700006 => .ok ((List.range 768).flatMap fun b => leBytes 4 (s.fenceBits b))
  | 0x800006 => .ok (leBytes 32 s.drawn.toNat)
  | 0x802003 => .ok s.sec.imageKeys
  | 0x802004 => .ok s.sec.debugKeys
  | 0xA02004 =>
    if 4096 ≤ sel 0xA02003 then .error .unknownObject
    else match s.fab.sessions.find? fun x => x.idx = sel 0xA02003 with
      | some x => .ok (leBytes 32 (s.partnerEntry x))
      | none => .ok (leBytes 32 0)
  | _ => .ok []

/-! ### Reading -/

/-- Value of a select entry in a session: what the session wrote, or the default (R337). -/
def DictSession.select (d : DictSession) (key : Nat) : Nat := lookupD d.selects key (odDefault key)

/-- The value that a READ of an entry returns. -/
def State.readValue (s : State) (d : DictSession) (r : EntryRow) (key : Nat) : Except Status (List Byte) :=
  match r.ty.size with
  | some n =>
    .ok (leBytes n (if r.acc = .const && key % 256 = 0 then r.dflt
      else if r.effect = 2 then d.select key else s.intValue key))
  | none => s.blobValue d.select key

end Sys2Proof.Machine
end

