-- ==== Sys2Proof/Machine/DictWrites.lean ====
section
/-!
DEFINITION. Writes of dictionary entries: lengths, states, and each entry's own rules and effect (R21, R38, R57, R98, R99, R119,
R138, R143, R173, R239, R278, R293..R297, R308, R334..R340, R343, R354, R356, R362, R375, R396, R411, R415..R417, R420, R421,
R425, R428..R431, R434).
-/
namespace Sys2Proof.Machine

/-! ### Sessions (R338, R340) -/

/-- The session is that of a transport, channel and station. -/
def DictSession.is (d : DictSession) (x : DictSession) : Bool :=
  d.transport = x.transport && d.channel = x.channel && d.station = x.station

/-- Changes one session. -/
def State.modDict (s : State) (d : DictSession) (g : DictSession → DictSession) : State :=
  { s with dict := { s.dict with sessions := s.dict.sessions.map fun x => if x.is d then g x else x } }

/-- Ceiling of a role by transport and channel (R340). -/
def State.roleCeiling (s : State) (t : Transport) (channel : Nat) : Role :=
  match t with
  | .can => (Role.ofCode (s.entry 0x103004)).getD .observer
  | .pcie => if channel = 0 then .custodian else .observer
  | .etnan => (Role.ofCode (s.entry 0x103005)).getD .observer

/-- The lower of a session's role and its ceiling. -/
def State.capRole (s : State) (d : DictSession) : DictSession :=
  let c := s.roleCeiling d.transport d.channel
  { d with role := if c.code < d.role.code then c else d.role }

/-! ### Lengths and states (R334, R343, R356) -/

/-- Lengths in bytes that a write of an entry may have (R334). -/
def lengthOk (r : EntryRow) (key n : Nat) : Bool :=
  match r.ty.size with
  | some k => n = k
  | none =>
    if key = 0x800004 then n = 1 || n = 4715
    else if key = 0x802001 || key = 0x802002 then n = 48
    else if key = 0x802003 || key = 0x802004 then n ≤ 10368 && n % 2592 = 0
    else n ≤ r.maxLen

/-- The operating state takes a write of the entry (R356). -/
def writeState (op : OpState) (r : EntryRow) (key : Nat) : Bool :=
  if key = 0x102002 then op ≠ .off && op ≠ .starting
  else if r.effect = 1 then op ≠ .off
  else if 0x600000 ≤ key && key < 0x900000 then op = .dark || sweeping op
  else if 0x900000 ≤ key && key < 0xA00000 then op = .dark || op = .retained || sweeping op
  else sweeping op

/-! ### What a write gives -/

/-- What GD, MP or the BIST finds about what a write brings: signer, digests and versions, failing units. -/
structure Facts where
  signer : Signer := .none
  digestOk : Bool := false
  secVersion : Nat := 0
  fwVersion : Nat := 0
  failing : List Nat := []
  deriving DecidableEq, Repr

/-- A write's outcome: the status that refuses it, or the state with its effect and what follows the answer. -/
abbrev Written := Except Status (State × (State → State))

/-- Done, nothing follows. -/
def wrote (s : State) : Written := .ok (s, id)

/-- Done, and the answer is followed by a transition (R354, R420). -/
def thereafter (s : State) (f : State → State) : Written := .ok (s, f)

/-- A rule of an entry: its status when it does not hold. -/
def need (c : Bool) (st : Status) (k : Written) : Written := if c then k else .error st

/-- No request of any function is outstanding. -/
def State.noRequest (s : State) : Bool := !s.reqs.any fun r => r.fn < 64

/-! ### Ledgers and the sweep (R38, R99, R119, R143) -/

/-- Every ledger of R37 holds its LC charges. -/
def State.ledgersHold (s : State) : Bool := ledgerOrder.all s.ledgerOk

/-- The live store passes the test of R38 at a share and a period; no store passes always. -/
def State.storePasses (s : State) (bSweep period : Nat) : Bool :=
  match s.index.live.head? with
  | some v => s.test38 v.img bSweep period
  | none => true

/-- The shortest period in ns, in force or accepted, that the live store runs at. -/
def State.livePeriod (s : State) : Nat :=
  match s.index.live.head? with
  | some v => min (s.periodAt s.openSweep) (s.periodFor v.img)
  | none => 0

/-- A member of an index group of several (R138). -/
def State.grouped (s : State) : Bool := (s.index.live.head?).any fun v => 1 < v.img.members

/-- 0x3000:0x01: in force from the first unbooked sweep on. -/
def State.writePeriod (s : State) (v : Nat) : Written :=
  need (!s.grouped) .stateConflict <|
  need (s.storePasses (s.entry 0x601001) (v * 1000)) .refusedCapacity <|
  let n := s.unbooked
  let segs := if s.scheduled then (n, s.sweepAt n, v * 1000) :: s.sweep.segs else s.sweep.segs
  wrote (({ s with sweep := { s.sweep with segs := segs } } : State).setEntry 0x300001 v)

/-- 0x3000:0x06: in force from the first unbooked sweep on. -/
def State.writePartnerWait (s : State) (v : Nat) : Written :=
  let old := if s.sweep.waits.isEmpty then [(0, s.entry 0x300006)] else s.sweep.waits
  wrote (({ s with sweep := { s.sweep with waits := (s.unbooked, v) :: old } } : State).setEntry 0x300006 v)

/-- 0x6010:0x01: in force from the next sweep on. -/
def State.writeSweepShare (s : State) (v : Nat) : Written :=
  let gen := s.entry 0x601002
  need (v + gen + 1000 ≤ 58980) .fieldReserved <|
  need (s.storePasses v s.livePeriod) .refusedCapacity <|
  need ({ s with adm := { s.adm with bSweepTbl := v, bGen := gen } } : State).ledgersHold .refusedCapacity <|
  wrote (s.setEntry 0x601001 v)

/-- 0x6010:0x02: in force from the next base-step boundary on. -/
def State.writeGenShare (s : State) (v : Nat) : Written :=
  let sweep := s.entry 0x601001
  need (v + sweep + 1000 ≤ 58980) .fieldReserved <|
  need ({ s with adm := { s.adm with bSweepTbl := sweep, bGen := v } } : State).ledgersHold .refusedCapacity <|
  wrote (s.setEntry 0x601002 v)

/-- An allotment that a ledger's capacity depends on. -/
def State.writeAllotment (s : State) (key v : Nat) (l : Ledger) : Written :=
  need ((s.setEntry key v).ledgerOk l) .refusedCapacity (wrote (s.setEntry key v))

/-- 0xA100:0x03 (R297). -/
def State.writeMirrorAllotment (s : State) (v : Nat) : Written :=
  need (v ≤ (s.directPorts.length - 1) * 5000000) .refusedCapacity (s.writeAllotment 0xA10003 v .mirror)

/-! ### Fabric and pair (R278, R280, R294) -/

/-- 0xA100:0x01: 0 or another identifier dissolves a pair at the next boundary; a first one names the peer. -/
def State.writePeer (s : State) (v : Nat) : Written :=
  need (v = 0 || validIdent v) .fieldReserved <|
  let s1 := s.setEntry 0xA10001 v
  if v = s.peer then wrote s1
  else if s.pair.state = .unpaired then wrote ((s1.setPair .forming).openToward v)
  else wrote (({ s1 with pair := { s1.pair with dissolve := true } } : State).openToward v)

/-- 0xA020:0x01: opens and pins. -/
def State.writeOpen (s : State) (v : Nat) : Written :=
  need (validIdent v) .fieldReserved <|
  wrote (({ s with fab := { s.fab with pinned := (s.fab.pinned ++ [v]).eraseDups } } : State).openToward v)

/-- 0xA020:0x02: unpins; the session closes when R282 allows. -/
def State.writeClose (s : State) (v : Nat) : Written :=
  need (validIdent v) .fieldReserved <|
  wrote { s with fab := { s.fab with pinned := s.fab.pinned.filter (· ≠ v) } }

/-! ### Flash, recovery, diagnostics (R362, R396, R411) -/

/-- An image that is resident, live, or part of a load or publication in progress (log 103). -/
def State.imageInUse (s : State) (id : Nat) : Bool :=
  s.img.models.any (·.imageId = id) || s.img.vocabs.any (·.imageId = id) || s.img.templates.any (·.imageId = id)
    || s.img.clists.any (·.imageId = id) || s.index.live.any (·.imageId = id) || s.index.pub.any (·.imageId = id)
    || s.loads.any (·.imageId = id)

/-- 0x6130:0x04. -/
def State.freeImage (s : State) (id : Nat) : Written :=
  need (s.flash.stored.any (·.id = id)) .unknownObject <|
  need (!s.imageInUse id) .stateConflict (wrote (s.dropStored id))

/-- 0x6200:0x02: staged at the offset, which advances. -/
def State.stageData (s : State) (bs : List Byte) : Written :=
  let o := s.entry 0x620001
  wrote (({ s with mod := { s.mod with staged := s.mod.staged.writeAll o bs } } : State).setEntry 0x620001 ((o + bs.length) % 2 ^ 32))

/-- The set that a verified one replaces: none while there is room, else the one GD would not start (R421; log 102). -/
def State.putSet (s : State) (x : FwSet) : State :=
  let sets := if s.mod.sets.length < 2 then s.mod.sets ++ [x]
    else modAt s.mod.sets (if s.pickSet = some 0 then 1 else 0) fun _ => x
  { s with mod := { s.mod with sets := sets } }

/-- 0x6200:0x03. -/
def State.commitSet (s : State) (x : Facts) (v : Nat) : Written :=
  let w : FwSet := { signer := x.signer, digestOk := x.digestOk, secVersion := x.secVersion, version := x.fwVersion }
  need (s.mod.op = .dark) .stateConflict <|
  if v = 1 then need (!s.mod.staged.isEmpty && s.setValid w) .accessDenied (wrote (s.putSet w))
  else if v = 2 then wrote s.eraseAll.formatFlash
  else .error .fieldReserved

/-- Compute die of a unit that phase 3 tests, by the code of log 67. -/
def codeDie (c : Nat) : Nat :=
  let u := c % 65536
  match c / 65536 with
  | 0 => u / 2 ^ 14
  | 1 => u / 192
  | 3 => u
  | _ => u / 8

/-- 0x7030:0x01. -/
def State.diagnose (s : State) (x : Facts) (v : Nat) : Written :=
  need (s.mod.op = .dark) .stateConflict <|
  need (v < 16) .fieldReserved <|
  wrote ((x.failing.filter fun c => bistUnit c && v / 2 ^ codeDie c % 2 = 1).foldl State.bistFence s)

/-- 0x7020:0x01. -/
def State.requestGlint (s : State) (a : Nat) : Written :=
  need (cellAddrOk a) .fieldReserved <|
  need (!s.blockFenced (cellBlock a) && !s.cellDead a) .stateConflict <|
  wrote { s with faults := { s.faults with suspects := { s.faults.suspects with
    cells := (s.faults.suspects.cells ++ [a]).eraseDups } } }

/-! ### Lifecycle, debug, keys (R420, R425, R428..R431, R434) -/

/-- READY or DARK with no request outstanding. -/
def State.still (s : State) : Bool := (s.mod.op = .ready || s.mod.op = .dark) && s.noRequest

/-- 0x8000:0x03. -/
def State.lifeCommand (s : State) (x : Facts) (v : Nat) : Written :=
  need (1 ≤ v && v ≤ 3) .fieldReserved <|
  need s.still .stateConflict <|
  let go (s : State) : Written := thereafter s.endDebug fun s => s.restart false
  match v with
  | 1 => need (s.sec.life = .opened && 0 < ownerKeys s.sec.imageKeys && 0 < ownerKeys s.sec.debugKeys) .stateConflict (go s.seal)
  | 2 => need (s.sec.life = .opened || s.sec.life = .sealed) .stateConflict (go s.retire)
  | _ =>
    need (s.sec.life = .blank) .stateConflict <|
    need (x.signer = .manufacturing && !s.sec.provToken.isEmpty) .accessDenied (go s.provision)

/-- A token's checks (R429, R430), and its grant. -/
def State.token (s : State) (d : DictSession) (x : Facts) (bs : List Byte) : Written :=
  let part (a n : Nat) : Nat := ofLe ((bs.drop a).take n)
  let level := part 0 1
  let fresh := match d.debugNonce with
    | some n => n.1.toNat = part 48 32 && s.now ≤ n.2 + 10000000000
    | none => false
  need ((level = 2 || level = 3) && part 1 7 = 0 && part 84 4 = 0) .fieldReserved <|
  need (s.tokenSigner x.signer (part 80 4)) .accessDenied <|
  need (part 16 32 = s.mod.serial.toNat) .accessDenied <|
  need fresh .accessDenied <|
  need (s.now < part 8 8) .accessDenied <|
  need (s.power.state ∈ [PowerState.p0, .p1, .p2] && (level = 2 || s.still)) .stateConflict <|
  wrote ((s.modDict d fun y => { y with debugNonce := none }).grant (if level = 3 then .d3 else .d2) (part 8 8))

/-- 0x8000:0x04: one byte, or a token. -/
def State.debugRequest (s : State) (d : DictSession) (x : Facts) (bs : List Byte) : Written :=
  if bs.length ≠ 1 then s.token d x bs
  else match ofLe bs with
    | 0 => thereafter s State.debugFall
    | 1 => wrote (if s.sec.debug = .d0 then s.setDebug .d1 else s)
    | _ => .error .fieldReserved

/-- 0x8010: key slot of a function. -/
def State.eraseCommand (s : State) (f v : Nat) : Written := need (v = 1) .fieldReserved (wrote (s.eraseSlot (f + 1)))

/-- 0x8020:0x01 and 0x02. -/
def State.writeRoleKey (s : State) (role : Nat) (bs : List Byte) : Written :=
  wrote { s with sec := { s.sec with roleKeys := setKey s.sec.roleKeys role bs } }

/-- 0x8020:0x03 and 0x04: fixed from SEAL on. -/
def State.writeOwnerKeys (s : State) (image : Bool) (bs : List Byte) : Written :=
  need (s.sec.life ≠ .sealed && s.sec.life ≠ .retired) .stateConflict <|
  wrote (if image then { s with sec := { s.sec with imageKeys := bs } } else { s with sec := { s.sec with debugKeys := bs } })

/-! ### State and power commands (R354, R401, R416, R417, R431) -/

/-- RETAIN: HBM in self-refresh, the compute dies gated; debug keeps D1 at most. -/
def State.retain (s : State) : State :=
  let s1 := if s.sec.debug = .d2 || s.sec.debug = .d3 then
      ({ s with sec := { s.sec with expiry := 0 } } : State).setDebug .d1 else s
  ({ s1 with
    mod := { s1.mod with hbmHeld := true }
    flash := s1.flash.checkpoint
    power := { s1.power with rail := 0 }
    pins := { s1.pins with pwrGood := false } } : State).enterOp .retained

/-- 0x1020:0x02. -/
def State.stateCommand (s : State) (role : Role) (v : Nat) : Written :=
  let op := s.mod.op
  need (1 ≤ v && v ≤ 6) .fieldReserved <|
  need (v < 5 || role = .custodian) .accessDenied <|
  match v with
  | 1 => need ((op = .ready || op = .draining) && s.sec.life ≠ .blank && s.sec.debug ≠ .d3) .stateConflict
      (thereafter s fun s => s.enterOp .serving)
  | 2 => need (op = .serving) .stateConflict (thereafter s fun s => s.enterOp .draining)
  | 3 => need (op = .ready && s.noRequest && s.sec.debug ≠ .d3) .stateConflict (thereafter s State.retain)
  | 4 => need (op = .retained) .stateConflict (thereafter s fun s => s.restart true)
  | 5 => need ((op = .ready || op = .retained) && s.noRequest) .stateConflict (thereafter s fun s => s.restart true)
  | _ => need (op = .dark || ((op = .ready || op = .retained) && s.noRequest)) .stateConflict
      (thereafter s fun s => s.restart false)

/-- 0x9000:0x03. -/
def State.writeCap (s : State) (v : Nat) : Written := wrote (s.setEntry 0x900003 v).settlePower

/-- Responses that wait for the CAN FD bus. -/
def State.flushCan (s : State) : State :=
  let rs := (s.dict.canQueue.filter fun f => f.kind = 2) ++ s.dict.canWaiting
  { s with out := s.out ++ rs.map fun f => .can (2 * 128 + s.inForce 0x103001) f.bytes }

/-- 0x9000:0x04. -/
def State.powerCommand (s : State) (v : Nat) : Written :=
  need (v = 4) .fieldReserved <|
  need ((s.mod.op = .ready || s.mod.op = .retained || s.mod.op = .dark) && s.noRequest) .stateConflict <|
  thereafter s fun s => s.flushCan.enterP4

/-! ### All entries -/

/-- Stores an integer entry that has no rule of its own. -/
def State.store1 (s : State) (d : DictSession) (r : EntryRow) (key v : Nat) : State :=
  if r.effect = 2 then s.modDict d fun x => { x with selects := setKey x.selects key v } else s.setEntry key v

/-- A ceiling of R340 takes effect on its sessions at once. -/
def State.writeCeiling (s : State) (key v : Nat) : Written :=
  let s1 := s.setEntry key v
  wrote { s1 with dict := { s1.dict with sessions := s1.dict.sessions.map s1.capRole } }

/-- A value in the range of its type and entry (R334, R343). -/
def inRange (r : EntryRow) (key v : Nat) : Bool :=
  if r.ty = .f32 then 0x3F800000 ≤ v && v ≤ 0x447A0000
  else if key / 256 = 0xA120 then v < 64 || v = 255
  else if key = 0xA00001 then v = 0 || validIdent v
  else r.lo ≤ v && v ≤ r.hi

/-- A write of a value of a fixed-size type. -/
def State.writeInt (s : State) (d : DictSession) (x : Facts) (r : EntryRow) (key v : Nat) : Written :=
  need (inRange r key v) .fieldReserved <|
  if key / 256 = 0x8010 then s.eraseCommand (key % 256 - 1) v
  else match key with
  | 0x102002 => s.stateCommand d.role v
  | 0x103004 => s.writeCeiling key v
  | 0x103005 => s.writeCeiling key v
  | 0x300001 => s.writePeriod v
  | 0x300006 => s.writePartnerWait v
  | 0x310002 => s.writeAllotment key v .flash
  | 0x500003 => s.writeAllotment key v .tblBytes
  | 0x601001 => s.writeSweepShare v
  | 0x601002 => s.writeGenShare v
  | 0x613004 => s.freeImage v
  | 0x620003 => s.commitSet x v
  | 0x702001 => s.requestGlint v
  | 0x703001 => s.diagnose x v
  | 0x800003 => s.lifeCommand x v
  | 0x900003 => s.writeCap v
  | 0x900004 => s.powerCommand v
  | 0xA01001 => s.writeAllotment key v .handoff
  | 0xA02001 => s.writeOpen v
  | 0xA02002 => s.writeClose v
  | 0xA10001 => s.writePeer v
  | 0xA10003 => s.writeMirrorAllotment v
  | _ => wrote (s.store1 d r key v)

/-- A write of a whole value: the entry's own rules (check 7 of R344) and its effect. -/
def State.writeEntry (s : State) (d : DictSession) (x : Facts) (r : EntryRow) (key : Nat) (bs : List Byte) : Written :=
  match r.ty.size with
  | some _ => s.writeInt d x r key (ofLe bs)
  | none => match key with
    | 0x620002 => s.stageData bs
    | 0x800004 => s.debugRequest d x bs
    | 0x800005 => wrote { s with sec := { s.sec with provToken := bs } }
    | 0x802001 => s.writeRoleKey 1 bs
    | 0x802002 => s.writeRoleKey 2 bs
    | 0x802003 => s.writeOwnerKeys true bs
    | 0x802004 => s.writeOwnerKeys false bs
    | _ => wrote s

end Sys2Proof.Machine
end

