-- ==== Sys2Proof/Machine/DictServe.lean ====
section
/-!
DEFINITION. The dictionary's protocol: arrival, checks, operations, answers, sessions and roles, segments, the CAN FD transmit
queue, every command that is a dictionary PDU (R338..R356, R408), pointer resynchronisation (R409, R410).
-/
namespace Sys2Proof.Machine

/-! ### The header (R341) -/

def pOp (h : Nat) : Nat := bits h 127 120
def pTid (h : Nat) : Nat := bits h 119 112
def pStation (h : Nat) : Nat := bits h 111 104
def pIndex (h : Nat) : Nat := bits h 95 80
def pSub (h : Nat) : Nat := bits h 79 72
def pLast (h : Nat) : Bool := bits h 65 65 = 1
def pFirst (h : Nat) : Bool := bits h 64 64 = 1
def pOffset (h : Nat) : Nat := bits h 63 48
def pTotal (h : Nat) : Nat := bits h 47 32
def pLen (h : Nat) : Nat := bits h 31 16

/-- INDEX:SUBINDEX. -/
def pKey (h : Nat) : Nat := pIndex h * 256 + pSub h

/-- RSVD fields are 0. -/
def pRsvdOk (h : Nat) : Bool := bits h 71 66 = 0 && bits h 15 0 = 0

/-- The transport's limit of LEN. -/
def lenLimit (t : Transport) : Nat := if t = .can then 48 else 4080

/-- STATION as the transport allows it. -/
def stationOk (t : Transport) (st : Nat) : Bool := if t = .pcie then st = 0 else 1 ≤ st && st ≤ 254

/-- LEN that an operation's request carries, where it is fixed (R344 check 2). -/
def lenOf (op : Nat) : Option Nat :=
  match op with
  | 2 => none
  | 6 => some 1
  | 7 => some 48
  | _ => some 0

/-! ### Answers (R342, R347, R348, R350..R352) -/

/-- An answer: status, the fields that describe a segment, data; the entry is the request's unless NEXT gives another. -/
structure Reply where
  status : Status := .done
  key : Option Nat := none
  first : Bool := false
  last : Bool := false
  offset : Nat := 0
  total : Nat := 0
  data : List Byte := []
  deriving DecidableEq, Repr

/-- Header word of an answer. -/
def Reply.header (q : Reply) (h : Nat) : Nat :=
  let k := q.key.getD (pKey h)
  pduHeader (pOp h) (pTid h) (pStation h) (statusCode q.status) (k / 256) (k % 256) q.last q.first q.offset q.total q.data.length

/-- A RESPONSE frame takes its position, or waits for it (R352). -/
def State.canRespond (s : State) (f : CanFrame) : State :=
  if !s.canOn then s
  else if s.dict.canQueue.any fun g => g.kind = 2 then { s with dict := { s.dict with canWaiting := s.dict.canWaiting ++ [f] } }
  else { s with dict := { s.dict with canQueue := s.dict.canQueue ++ [f] } }

/-- Sends an answer on the transport of its request. -/
def State.reply (s : State) (p : Pdu) (h : Nat) (q : Reply) : State :=
  let w := q.header h
  match p.transport with
  | .can => s.canRespond { kind := 2, station := pStation h, bytes := canBytes w q.data }
  | .pcie => (s.modFn p.channel fun fn => { fn with
      dictRsp := leBytes 16 w ++ q.data, dictBusy := false, dictValid := true, dictTaken := none }).fire p.channel 3
  | .etnan => s.emit (.pdu .etnan p.channel (BitVec.ofNat 128 w) q.data)

/-! ### Arrival (R338, R345, R347, R350, R351, R408) -/

/-- The PDU that AP takes up: header and the data its frame or window holds; none where nothing reaches the dictionary. -/
def State.arrived (s : State) (p : Pdu) : Option (Nat × List Byte) :=
  if !s.hubRuns then none else
  match p.transport with
  | .can => if s.canOn && p.ident = 0x180 + s.inForce 0x103001 then some (p.header.toNat, p.data) else none
  | .pcie =>
    if s.fnExists p.channel && (s.mod.op ≠ .dark || p.channel = 0) then
      (s.fn p.channel).dictTaken.map fun d => (d.1.toNat, d.2)
    else none
  | .etnan =>
    if s.fab.sessions.any (fun x => x.idx = p.channel && x.state = .opened) && (s.mod.op ≠ .dark || s.fab.ident ≠ 0) then
      some (p.header.toNat, p.data)
    else none

/-- The station still awaits the answer to its last request (R348). -/
def State.canBusy (s : State) (p : Pdu) (h : Nat) : Bool :=
  p.transport = .can && (s.dict.canQueue ++ s.dict.canWaiting).any fun f => f.kind = 2 && f.station = pStation h

/-- The session of a PDU as it begins. -/
def newSession (p : Pdu) (h : Nat) (now : Time) : DictSession :=
  { transport := p.transport, channel := if p.transport = .can then 0 else p.channel, station := pStation h, lastPdu := now }

/-- A CAN FD session that was silent for 10 s (R338). -/
def State.canStale (s : State) (d : DictSession) : Bool := d.transport = .can && d.lastPdu + 10000000000 ≤ s.now

/-- The session of a PDU: it begins with its first one. -/
def State.sessionOf (s : State) (p : Pdu) (h : Nat) : DictSession :=
  let n := newSession p h s.now
  match s.dict.sessions.find? fun d => d.is n with
  | some d => if s.canStale d then n else { d with lastPdu := s.now }
  | none => n

/-- Puts a session in place. -/
def State.putSession (s : State) (d : DictSession) : State :=
  { s with dict := { s.dict with sessions := (s.dict.sessions.filter fun x => !x.is d) ++ [d] } }

/-! ### Segments (R346) -/

/-- A snapshot or partial write is kept for 10 ms after its last segment. -/
def State.expired (s : State) (t : Time) : Bool := t + 10000000 ≤ s.now

/-- A session without what has expired. -/
def State.freshParts (s : State) (d : DictSession) : DictSession :=
  { d with
    snapshot := d.snapshot.filter fun x => !s.expired x.2.2.2
    partialW := d.partialW.filter fun x => !s.expired x.2.2.2 }

/-- What an operation gives: the state, the answer, and what follows the answer. -/
abbrev Served := State × Reply × (State → State)

/-- A refusal: no effect. -/
def refuse (s : State) (st : Status) : Served := (s, { status := st }, id)

/-- An answer without further effect. -/
def withReply (s : State) (q : Reply) : Served := (s, q, id)

/-- One segment of a value, from an offset on. -/
def segment (t : Transport) (v : List Byte) (off : Nat) : Reply :=
  let part := (v.drop off).take (lenLimit t)
  { first := off = 0, last := v.length ≤ off + part.length, offset := off, total := v.length, data := part }

/-- Keeps a value as the session's snapshot, with the next offset. -/
def State.keepSnapshot (s : State) (d : DictSession) (key : Nat) (v : List Byte) (q : Reply) : State :=
  s.modDict d fun x => { x with snapshot := some (key, v, q.offset + q.data.length, s.now) }

/-- Reads that draw: the debug nonce, which the session keeps, and the input power (R430, log 75). -/
def State.drawFor (s : State) (d : DictSession) (key : Nat) : State :=
  if key = 0x800006 then
    (s.modDict d fun x => { x with debugNonce := some (BitVec.ofNat 256 s.drawn.toNat, s.now) }).draw
  else if key = 0x900007 then s.draw
  else s

/-- READ (R335, R346). -/
def State.opRead (s : State) (d : DictSession) (r : EntryRow) (key off : Nat) : Served :=
  if r.acc = .wo || d.role.code < r.rd.code then refuse s .accessDenied
  else if off = 0 then
    match s.readValue d r key with
    | .error st => refuse s st
    | .ok v =>
      let q := segment d.transport v 0
      withReply ((s.drawFor d key).keepSnapshot d key v q) q
  else match d.snapshot with
    | none => refuse s .stateConflict
    | some x =>
      if x.1 = key && x.2.2.1 = off && off < x.2.1.length then
        let q := segment d.transport x.2.1 off
        withReply (s.keepSnapshot d key x.2.1 q) q
      else refuse s .stateConflict

/-- Discards the partial write. -/
def State.dropPartial (s : State) (d : DictSession) : State := s.modDict d fun x => { x with partialW := none }

/-- The bytes held before a segment and the value's length: none when the segment does not follow. -/
def heldBefore (d : DictSession) (key h : Nat) : Option (List Byte × Nat) :=
  if pFirst h then (if pOffset h = 0 then some ([], pTotal h) else none)
  else match d.partialW with
    | some x => if x.1 = key && pOffset h = x.2.2.1.length then some (x.2.2.1, x.2.1) else none
    | none => none

/-- WRITE (R334, R335, R344, R346, R356). -/
def State.opWrite (s : State) (d : DictSession) (x : Facts) (r : EntryRow) (key h : Nat) (data : List Byte) : Served :=
  if r.acc = .const || r.acc = .ro || d.role.code < r.wr.code then refuse s .accessDenied
  else if pFirst h && !lengthOk r key (pTotal h) then refuse s .lengthExceeds
  else match heldBefore d key h with
    | none => refuse (s.dropPartial d) .fieldReserved
    | some (held, total) =>
      let buf := held ++ data
      if total < buf.length || (pLast h && buf.length ≠ total) then refuse (s.dropPartial d) .fieldReserved
      else if !writeState s.mod.op r key then refuse s .stateConflict
      else if !pLast h then
        withReply (s.modDict d fun y => { y with partialW := some (key, total, buf, s.now) }) {}
      else
        let s1 := s.dropPartial d
        match s1.writeEntry d x r key buf with
        | .error st => refuse s1 st
        | .ok (s2, after) => (s2, {}, after)

/-! ### Roles (R339, R340) -/

/-- Code of a transport's failures. -/
def State.failsOf (s : State) (t : Transport) : Nat := ((s.dict.fails.find? fun p => p.1 = t).map (·.2)).getD 0

/-- Sets it. -/
def State.setFails (s : State) (t : Transport) (n : Nat) : State :=
  { s with dict := { s.dict with fails := (s.dict.fails.filter fun p => p.1 ≠ t) ++ [(t, n)] } }

/-- Proofs on the transport are locked out. -/
def State.lockedOut (s : State) (t : Transport) : Bool := s.dict.lockout.any fun p => p.1 = t && s.now < p.2

/-- A failed proof: counted; the eighth in a row locks the transport for 1 s. -/
def State.proofFailed (s : State) (t : Transport) : State :=
  let s1 := s.count 0x103012 1
  if s1.lockedOut t then s1
  else if s1.failsOf t + 1 < 8 then s1.setFails t (s1.failsOf t + 1)
  else
    let s2 := s1.setFails t 0
    { s2 with dict := { s2.dict with
      lockout := (s2.dict.lockout.filter fun p => p.1 ≠ t) ++ [(t, s2.now + 1000000000)] } }

/-- The bytes that a proof covers. -/
def proofBytes (nonce : BitVec 256) (role : Role) (d : DictSession) : List Byte :=
  leBytes 32 nonce.toNat ++ [BitVec.ofNat 8 role.code, BitVec.ofNat 8 (transportCode d.transport)] ++ leBytes 2 d.channel
    ++ [BitVec.ofNat 8 d.station]

/-- ROLE_CHALLENGE. -/
def State.opChallenge (s : State) (d : DictSession) (code : Nat) : Served :=
  match Role.ofCode code with
  | none => refuse s .fieldReserved
  | some role =>
    if role = .observer || (getKey s.sec.roleKeys role.code).isNone then refuse s .accessDenied
    else
      let n := BitVec.ofNat 256 s.drawn.toNat
      withReply (s.modDict d fun x => { x with nonce := some (n, role, s.now) }).draw { data := leBytes 32 n.toNat }

/-- The role that a proof earns. -/
def State.proved (s : State) (d : DictSession) (mac : List Byte) : Option Role :=
  if s.lockedOut d.transport then none else
  match d.nonce with
  | none => none
  | some (n, role, t) =>
    match getKey s.sec.roleKeys role.code with
    | none => none
    | some key =>
      if s.now ≤ t + 1000000000 && role.code ≤ (s.roleCeiling d.transport d.channel).code
          && hmac384 key (proofBytes n role d) = mac then some role
      else none

/-- ROLE_PROVE: the nonce is spent. -/
def State.opProve (s : State) (d : DictSession) (mac : List Byte) : Served :=
  let s1 := s.modDict d fun x => { x with nonce := none }
  match s.proved d mac with
  | some role => withReply ((s1.modDict d fun x => { x with role := role }).setFails d.transport 0) {}
  | none => refuse (s1.proofFailed d.transport) .accessDenied

/-! ### Serving (R344, R345) -/

/-- Check 1 of R344. -/
def headerOk (t : Transport) (h : Nat) : Bool :=
  1 ≤ pOp h && pOp h ≤ 8 && pRsvdOk h && stationOk t (pStation h) && pLen h ≤ lenLimit t && (pOp h < 5 || pKey h = 0)

/-- Checks 3 to 7 and the operation. -/
def State.operate (s : State) (d : DictSession) (x : Facts) (h : Nat) (data : List Byte) : Served :=
  let key := pKey h
  let entry (k : EntryRow → Served) : Served := match odFind key with
    | none => refuse s .unknownObject
    | some r => k r
  match pOp h with
  | 1 => entry fun r => s.opRead d r key (pOffset h)
  | 2 => entry fun r => s.opWrite d x r key h data
  | 3 => entry fun r => withReply s { data := leBytes 8 r.descriptor }
  | 4 => match odNext key with
    | none => refuse s .unknownObject
    | some k => match odFind k with
      | none => refuse s .unknownObject
      | some r => withReply s { key := some k, data := leBytes 8 r.descriptor }
  | 5 => withReply (s.modDict d fun y => { y with snapshot := none, partialW := none }) {}
  | 6 => s.opChallenge d (ofLe data)
  | 7 => s.opProve d data
  | _ => withReply (s.modDict d fun y => { y with role := .observer }) {}

/-- A PDU served: checks 1 and 2, its session, the operation (R338, R344). -/
def State.handle (s : State) (p : Pdu) (x : Facts) (h : Nat) (held : List Byte) : Served :=
  let d := s.freshParts (s.sessionOf p h)
  let s1 := if stationOk p.transport (pStation h) then s.putSession d else s
  if !headerOk p.transport h then refuse s1 .fieldReserved
  else if held.length < pLen h || (lenOf (pOp h)).any (· ≠ pLen h) then refuse s1 .lengthExceeds
  else s1.operate d x h (held.take (pLen h))

/-- What a PDU does that reaches the hub: a full queue and a second CAN FD request are answered at once; else it is counted,
served, answered, and what follows the answer happens (R345, R348, R354). `fits` tells the PDUs of the row. -/
def State.serveDict (s0 : State) (p : Pdu) (x : Facts) (fits : Nat → List Byte → Bool) : State :=
  match s0.arrived p with
  | none => s0
  | some (h, held) =>
    if !fits h held then s0 else
    let s := if p.transport = .etnan then s0.control p.channel else s0
    if s.canBusy p h then s.reply p h { status := .stateConflict }
    else if 64 ≤ p.waiting then (s.count 0x103011 1).reply p h { status := .refusedCapacity }
    else
      let v := (s.count 0x103010 1).handle p x h held
      v.2.2 (v.1.reply p h v.2.1)

/-- PDUs of an operation's row: its OP, or an OP that no row names (log 100). -/
def opRow (op : Nat) (h : Nat) (_ : List Byte) : Bool := pOp h = op || pOp h = 0 || 8 < pOp h

/-- PDUs of a row that is a write of one entry. -/
def writeRow (key : Nat) (h : Nat) (_ : List Byte) : Bool := pOp h = 2 && pKey h = key

/-- PDUs of a row that is a write of one value of a one-byte entry. -/
def commandRow (key v : Nat) (h : Nat) (held : List Byte) : Bool :=
  pOp h = 2 && pKey h = key && pLen h = 1 && (held.headD 0).toNat = v

/-! ### The operations' rows -/

/-- READ. -/
def execRead (t : Nat) (p : Pdu) (s : State) : Host.Outcome State Fault Refusal :=
  .next ((s.tick t).serveDict p {} (opRow 1))

/-- WRITE of any entry; verification that a row of its own carries finds nothing good here. -/
def execWrite (t : Nat) (p : Pdu) (s : State) : Host.Outcome State Fault Refusal :=
  .next ((s.tick t).serveDict p {} (opRow 2))

/-- DESCRIBE. -/
def execDescribe (t : Nat) (p : Pdu) (s : State) : Host.Outcome State Fault Refusal :=
  .next ((s.tick t).serveDict p {} (opRow 3))

/-- NEXT. -/
def execNext (t : Nat) (p : Pdu) (s : State) : Host.Outcome State Fault Refusal :=
  .next ((s.tick t).serveDict p {} (opRow 4))

/-- ABORT. -/
def execAbort (t : Nat) (p : Pdu) (s : State) : Host.Outcome State Fault Refusal :=
  .next ((s.tick t).serveDict p {} (opRow 5))

/-- ROLE_CHALLENGE. -/
def execRoleChallenge (t : Nat) (p : Pdu) (s : State) : Host.Outcome State Fault Refusal :=
  .next ((s.tick t).serveDict p {} (opRow 6))

/-- ROLE_PROVE. -/
def execRoleProve (t : Nat) (p : Pdu) (s : State) : Host.Outcome State Fault Refusal :=
  .next ((s.tick t).serveDict p {} (opRow 7))

/-- ROLE_DROP. -/
def execRoleDrop (t : Nat) (p : Pdu) (s : State) : Host.Outcome State Fault Refusal :=
  .next ((s.tick t).serveDict p {} (opRow 8))

/-! ### Time limits of sessions -/

/-- What a session holds of a segmented transfer expires (R346). -/
def State.expireParts (s : State) (d : DictSession) : State := s.modDict d s.freshParts

/-- SEGMENT_TIMEOUT. -/
def execSegmentTimeout (t : Nat) (transport : Transport) (channel station : Nat) (s : State) : Host.Outcome State Fault Refusal :=
  .next ((s.tick t).expireParts { transport := transport, channel := channel, station := station })

/-- CAN_SESSION_TIMEOUT: a silent session ends, and its role with it (R338). -/
def execCanSessionTimeout (t station : Nat) (s : State) : Host.Outcome State Fault Refusal :=
  let s1 := s.tick t
  .next { s1 with dict := { s1.dict with
    sessions := s1.dict.sessions.filter fun d => !(d.transport = .can && d.station = station && s1.canStale d) } }

/-- ROLE_LOCKOUT_EXPIRY (R339). -/
def execRoleLockoutExpiry (t : Nat) (transport : Transport) (s : State) : Host.Outcome State Fault Refusal :=
  let s1 := s.tick t
  .next { s1 with dict := { s1.dict with
    lockout := s1.dict.lockout.filter fun p => !(p.1 = transport && p.2 ≤ s1.now) } }

/-! ### CAN FD transmit queue (R347..R349, R352) -/

/-- Removes the first frame of a kind. -/
def takeKind (k : Nat) : List CanFrame → List CanFrame
  | [] => []
  | f :: r => if f.kind = k then r else f :: takeKind k r

/-- Pending events are queued, with their entries' current values, while positions are free. -/
def State.queuePending : List Nat → State → State
  | [], s => s
  | k :: ks, s =>
    if (s.dict.canQueue.filter fun f => f.kind = 1).length < 14 then
      State.queuePending ks { s with dict := { s.dict with
        canQueue := s.dict.canQueue ++ [s.canEvent k], canPending := s.dict.canPending.filter (· ≠ k) } }
    else s

/-- A waiting response takes the free position. -/
def State.queueWaiting (s : State) : State :=
  match s.dict.canWaiting with
  | [] => s
  | f :: r =>
    if s.dict.canQueue.any fun g => g.kind = 2 then s
    else { s with dict := { s.dict with canQueue := s.dict.canQueue ++ [f], canWaiting := r } }

/-- The frame that leaves next: events, then responses, then the heartbeat. -/
def nextFrame (q : List CanFrame) : Option CanFrame :=
  [1, 2, 7].findSome? fun k => q.find? fun f => f.kind = k

/-- The bus grants arbitration. -/
def State.canSent (s : State) : State :=
  if s.mod.op = .off || !s.canOn then s else
  match nextFrame s.dict.canQueue with
  | none => s
  | some f =>
    let s1 : State := { s with dict := { s.dict with canQueue := takeKind f.kind s.dict.canQueue } }
    (State.queuePending s.dict.canPending (s1.emit (.can (f.kind * 128 + s.inForce 0x103001) f.bytes))).queueWaiting

/-- CAN_FRAME_SENT. -/
def execCanFrameSent (t : Nat) (s : State) : Host.Outcome State Fault Refusal := .next (s.tick t).canSent

/-- The HEARTBEAT frame. -/
def State.heartbeatFrame (s : State) : CanFrame :=
  { kind := 7, bytes := [s.mod.op.code, s.power.state.code, s.ptp.state.code, s.pair.state.code, s.sec.life.code,
      (DebugLevel.code s.sec.debug), 0, 0].map (BitVec.ofNat 8) }

/-- A heartbeat takes its position; one still queued is replaced. -/
def State.heartbeatDue (s : State) : State :=
  if s.entry 0x103002 = 0 || !s.canOn || !s.hubRuns then s
  else { s with dict := { s.dict with canQueue := takeKind 7 s.dict.canQueue ++ [s.heartbeatFrame] } }

/-- CAN_HEARTBEAT. -/
def execCanHeartbeat (t : Nat) (s : State) : Host.Outcome State Fault Refusal := .next (s.tick t).heartbeatDue

/-! ### Pointer resynchronisation (R409, R410)

A crossing is 8 × its number + its part, with the parts and numbers of CROSSING_WATCHDOG (log 194). Owners hold what they may have to
issue again: the copies in a region's queue, the frames in a replay buffer, the reads of a request. -/

/-- Frames for the CAN FD controller are discarded and have no owner (R410): the events become pending, since the newest value of every
evented entry is always sent, and a response that waited takes the free position (R352). -/
def State.discardCan (s : State) : State :=
  let events := ((s.dict.canQueue.filter fun f => f.kind = 1).map (·.entry)).filter fun k => !s.dict.canPending.contains k
  let ks := s.dict.canPending ++ events.eraseDups
  let s1 : State := { s with dict := { s.dict with canQueue := [], canPending := ks } }
  (State.queuePending ks (s1.count 0x103013 events.eraseDups.length)).queueWaiting

/-- The entries of a crossing flow again: link retry sends the frames of the lane's port that are not acknowledged (R276, R410). -/
def State.reissue (s : State) (crossing : Nat) : State :=
  let p := crossing / 8 / 4
  if crossing % 8 = 1 && (s.port p).inService && !(s.port p).replay.isEmpty then s.replay p (crossing / 8 % 4) else s

/-- One side of a crossing leaves reset and raises its request, at which the other side discards what was written before; or the other
acknowledges, which without a request is ignored, and entries flow again. -/
def State.resyncSignal (s : State) (crossing : Nat) (request ack : Bool) : State :=
  let had := s.faults.resync.any fun p => p.1 = crossing && p.2
  let others := s.faults.resync.filter fun p => p.1 ≠ crossing
  let now := (had && !ack) || request
  let s1 : State := { s with faults := { s.faults with resync := if now then others ++ [(crossing, true)] else others } }
  let s2 := if request && crossing % 8 = 3 then s1.discardCan else s1
  if had && ack then s2.reissue crossing else s2

def execCrossingResync (t : Nat) (crossing : Nat) (request ack : Bool) (s : State) : Host.Outcome State Fault Refusal :=
  .next ((s.tick t).resyncSignal crossing request ack)

/-! ### State commands (R354) -/

/-- SERVE. -/
def execServe (t : Nat) (p : Pdu) (s : State) : Host.Outcome State Fault Refusal :=
  .next ((s.tick t).serveDict p {} (commandRow 0x102002 1))

/-- DRAIN. -/
def execDrain (t : Nat) (p : Pdu) (s : State) : Host.Outcome State Fault Refusal :=
  .next ((s.tick t).serveDict p {} (commandRow 0x102002 2))

/-- RETAIN. -/
def execRetain (t : Nat) (p : Pdu) (s : State) : Host.Outcome State Fault Refusal :=
  .next ((s.tick t).serveDict p {} (commandRow 0x102002 3))

/-- RESUME. -/
def execResume (t : Nat) (p : Pdu) (s : State) : Host.Outcome State Fault Refusal :=
  .next ((s.tick t).serveDict p {} (commandRow 0x102002 4))

/-- RESTART_WARM. -/
def execRestartWarm (t : Nat) (p : Pdu) (s : State) : Host.Outcome State Fault Refusal :=
  .next ((s.tick t).serveDict p {} (commandRow 0x102002 5))

/-- RESTART_COLD. -/
def execRestartCold (t : Nat) (p : Pdu) (s : State) : Host.Outcome State Fault Refusal :=
  .next ((s.tick t).serveDict p {} (commandRow 0x102002 6))

/-! ### Lifecycle and debug (R420, R428..R431) -/

/-- PROVISION; `signer` is what GD finds when it verifies the provisioning token. -/
def execProvision (t : Nat) (p : Pdu) (signer : Signer) (s : State) : Host.Outcome State Fault Refusal :=
  .next ((s.tick t).serveDict p { signer := signer } (commandRow 0x800003 3))

/-- SEAL. -/
def execSeal (t : Nat) (p : Pdu) (s : State) : Host.Outcome State Fault Refusal :=
  .next ((s.tick t).serveDict p {} (commandRow 0x800003 1))

/-- RETIRE. -/
def execRetire (t : Nat) (p : Pdu) (s : State) : Host.Outcome State Fault Refusal :=
  .next ((s.tick t).serveDict p {} (commandRow 0x800003 2))

/-- DEBUG_END. -/
def execDebugEnd (t : Nat) (p : Pdu) (s : State) : Host.Outcome State Fault Refusal :=
  .next ((s.tick t).serveDict p {} (commandRow 0x800004 0))

/-- DEBUG_D1. -/
def execDebugD1 (t : Nat) (p : Pdu) (s : State) : Host.Outcome State Fault Refusal :=
  .next ((s.tick t).serveDict p {} (commandRow 0x800004 1))

/-- DEBUG_TOKEN: any segment of a debug request of more than one byte; `signer` is what GD finds when it verifies the token. -/
def execDebugToken (t : Nat) (p : Pdu) (signer : Signer) (s : State) : Host.Outcome State Fault Refusal :=
  .next ((s.tick t).serveDict p { signer := signer } fun h held => writeRow 0x800004 h held && !(pFirst h && pTotal h = 1))

/-- DEBUG_NONCE: a read of 0x8000:0x06. -/
def execDebugNonce (t : Nat) (p : Pdu) (s : State) : Host.Outcome State Fault Refusal :=
  .next ((s.tick t).serveDict p {} fun h _ => pOp h = 1 && pKey h = 0x800006)

/-! ### Power, shares, sweep, glint (R99, R119, R392, R416, R417) -/

/-- STANDBY. -/
def execStandby (t : Nat) (p : Pdu) (s : State) : Host.Outcome State Fault Refusal :=
  .next ((s.tick t).serveDict p {} (writeRow 0x900004))

/-- POWER_CAP. -/
def execPowerCap (t : Nat) (p : Pdu) (s : State) : Host.Outcome State Fault Refusal :=
  .next ((s.tick t).serveDict p {} (writeRow 0x900003))

/-- SWEEP_PERIOD_WRITE. -/
def execSweepPeriodWrite (t : Nat) (p : Pdu) (s : State) : Host.Outcome State Fault Refusal :=
  .next ((s.tick t).serveDict p {} (writeRow 0x300001))

/-- SWEEP_SHARE_WRITE. -/
def execSweepShareWrite (t : Nat) (p : Pdu) (s : State) : Host.Outcome State Fault Refusal :=
  .next ((s.tick t).serveDict p {} (writeRow 0x601001))

/-- GENERATION_SHARE_WRITE. -/
def execGenerationShareWrite (t : Nat) (p : Pdu) (s : State) : Host.Outcome State Fault Refusal :=
  .next ((s.tick t).serveDict p {} (writeRow 0x601002))

/-- GLINT_REQUEST. -/
def execGlintRequest (t : Nat) (p : Pdu) (s : State) : Host.Outcome State Fault Refusal :=
  .next ((s.tick t).serveDict p {} (writeRow 0x702001))

/-! ### Recovery, diagnostics, keys, images, partners (R308, R362, R408, R411, R425) -/

/-- RECOVERY_DATA. -/
def execRecoveryData (t : Nat) (p : Pdu) (s : State) : Host.Outcome State Fault Refusal :=
  .next ((s.tick t).serveDict p {} (writeRow 0x620002))

/-- RECOVERY_COMMIT_VERIFY, with what GD finds of the staged set. -/
def execRecoveryCommitVerify (t : Nat) (p : Pdu) (signer : Signer) (digestOk : Bool) (secVersion fwVersion : Nat) (s : State) :
    Host.Outcome State Fault Refusal :=
  .next ((s.tick t).serveDict p { signer := signer, digestOk := digestOk, secVersion := secVersion, fwVersion := fwVersion }
    (commandRow 0x620003 1))

/-- RECOVERY_COMMIT_ERASE. -/
def execRecoveryCommitErase (t : Nat) (p : Pdu) (s : State) : Host.Outcome State Fault Refusal :=
  .next ((s.tick t).serveDict p {} (commandRow 0x620003 2))

/-- DIAGNOSTIC_BIST, with the units that fail (log 67). -/
def execDiagnosticBist (t : Nat) (p : Pdu) (failing : List Nat) (s : State) : Host.Outcome State Fault Refusal :=
  .next ((s.tick t).serveDict p { failing := failing } (writeRow 0x703001))

/-- ERASE_KEY_SLOT. -/
def execEraseKeySlot (t : Nat) (p : Pdu) (s : State) : Host.Outcome State Fault Refusal :=
  .next ((s.tick t).serveDict p {} fun h _ => pOp h = 2 && pIndex h = 0x8010)

/-- FREE_STORED_IMAGE. -/
def execFreeStoredImage (t : Nat) (p : Pdu) (s : State) : Host.Outcome State Fault Refusal :=
  .next ((s.tick t).serveDict p {} (writeRow 0x613004))

/-- OPEN_PARTNER. -/
def execOpenPartner (t : Nat) (p : Pdu) (s : State) : Host.Outcome State Fault Refusal :=
  .next ((s.tick t).serveDict p {} (writeRow 0xA02001))

/-- CLOSE_PARTNER. -/
def execClosePartner (t : Nat) (p : Pdu) (s : State) : Host.Outcome State Fault Refusal :=
  .next ((s.tick t).serveDict p {} (writeRow 0xA02002))

end Sys2Proof.Machine
end

