-- ==== Sys2Proof/Machine/Dispatch.lean ====
section
/-!
DEFINITION. One arm per command of the opcode table: the direct call of its meaning.
-/
namespace Sys2Proof.Machine

def exec (i : Instr) (s : State) : Host.Outcome State Fault Refusal :=
  match i with
  | .subTailDoorbell t f r v => Sys2Proof.Machine.execSubTailDoorbell t f r v s
  | .cplHeadDoorbell t f v => Sys2Proof.Machine.execCplHeadDoorbell t f v s
  | .sbrHeadDoorbell t f v => Sys2Proof.Machine.execSbrHeadDoorbell t f v s
  | .ringEnable t f ring => Sys2Proof.Machine.execRingEnable t f ring s
  | .ringDisable t f ring => Sys2Proof.Machine.execRingDisable t f ring s
  | .funcEventClear t f mask => Sys2Proof.Machine.execFuncEventClear t f mask s
  | .funcRegisterWrite t f offset width value => Sys2Proof.Machine.execFuncRegisterWrite t f offset width value s
  | .ask t x p => Sys2Proof.Machine.execAsk t x p s
  | .retrieve t x p => Sys2Proof.Machine.execRetrieve t x p s
  | .embed t x p => Sys2Proof.Machine.execEmbed t x p s
  | .rerank t x p => Sys2Proof.Machine.execRerank t x p s
  | .pack t x p => Sys2Proof.Machine.execPack t x p s
  | .generate t x p => Sys2Proof.Machine.execGenerate t x p s
  | .cancel t x => Sys2Proof.Machine.execCancel t x s
  | .tableGather t x g => Sys2Proof.Machine.execTableGather t x g s
  | .tableUpdate t x u => Sys2Proof.Machine.execTableUpdate t x u s
  | .tablePublishTable t x p => Sys2Proof.Machine.execTablePublishTable t x p s
  | .tablePublishMap t x p => Sys2Proof.Machine.execTablePublishMap t x p s
  | .tablePublishMigrate t x p => Sys2Proof.Machine.execTablePublishMigrate t x p s
  | .modelLoad t x p => Sys2Proof.Machine.execModelLoad t x p s
  | .modelSwap t x p => Sys2Proof.Machine.execModelSwap t x p s
  | .indexPublish t x p => Sys2Proof.Machine.execIndexPublish t x p s
  | .copy t x blk data => Sys2Proof.Machine.execCopy t x blk data s
  | .nop t x => Sys2Proof.Machine.execNop t x s
  | .copyDone t f tag => Sys2Proof.Machine.execCopyDone t f tag s
  | .functionLevelReset t f => Sys2Proof.Machine.execFunctionLevelReset t f s
  | .pcieLinkReset t perst => Sys2Proof.Machine.execPcieLinkReset t perst s
  | .vfEnableChange t enable num => Sys2Proof.Machine.execVfEnableChange t enable num s
  | .msixHoldoffExpiry t f v => Sys2Proof.Machine.execMsixHoldoffExpiry t f v s
  | .splitMemberAnswer t f tag group width ok n => Sys2Proof.Machine.execSplitMemberAnswer t f tag group width ok n s
  | .splitMemberTimeout t f tag => Sys2Proof.Machine.execSplitMemberTimeout t f tag s
  | .tokenizeDone t f tag => Sys2Proof.Machine.execTokenizeDone t f tag s
  | .embedDone t f tag x outs => Sys2Proof.Machine.execEmbedDone t f tag x outs s
  | .slateClose t => Sys2Proof.Machine.execSlateClose t s
  | .sweepStart t => Sys2Proof.Machine.execSweepStart t s
  | .prefetchCheckpoint t quarter => Sys2Proof.Machine.execPrefetchCheckpoint t quarter s
  | .sweepEnd t diffs => Sys2Proof.Machine.execSweepEnd t diffs s
  | .mergeDone t f tag => Sys2Proof.Machine.execMergeDone t f tag s
  | .partnerListDeadline t sweepNo => Sys2Proof.Machine.execPartnerListDeadline t sweepNo s
  | .indexLoadDone t ok => Sys2Proof.Machine.execIndexLoadDone t ok s
  | .rerankDone t f tag => Sys2Proof.Machine.execRerankDone t f tag s
  | .crossEncodeDone t f tag logits => Sys2Proof.Machine.execCrossEncodeDone t f tag logits s
  | .selectDone t f tag => Sys2Proof.Machine.execSelectDone t f tag s
  | .passageFetchDone t f tag => Sys2Proof.Machine.execPassageFetchDone t f tag s
  | .packDone t f tag => Sys2Proof.Machine.execPackDone t f tag s
  | .remoteWaitExpiry t f tag => Sys2Proof.Machine.execRemoteWaitExpiry t f tag s
  | .handoffWaitExpiry t f tag => Sys2Proof.Machine.execHandoffWaitExpiry t f tag s
  | .baseStepBoundary t lateNs => Sys2Proof.Machine.execBaseStepBoundary t lateNs s
  | .sliceEnd t id ops => Sys2Proof.Machine.execSliceEnd t id ops s
  | .draftFinish t slot props => Sys2Proof.Machine.execDraftFinish t slot props s
  | .verificationEnd t rows => Sys2Proof.Machine.execVerificationEnd t rows s
  | .stepBatchRecordWrite t => Sys2Proof.Machine.execStepBatchRecordWrite t s
  | .modelLoadDone t f tag slot => Sys2Proof.Machine.execModelLoadDone t f tag slot s
  | .rowReq t hdr b => Sys2Proof.Machine.execRowReq t hdr b s
  | .rowAns t hdr b => Sys2Proof.Machine.execRowAns t hdr b s
  | .gatherWaitExpiry t f tag row => Sys2Proof.Machine.execGatherWaitExpiry t f tag row s
  | .gatherDone t f tag => Sys2Proof.Machine.execGatherDone t f tag s
  | .delta t hdr b => Sys2Proof.Machine.execDelta t hdr b s
  | .deltaAns t hdr tag applied stale => Sys2Proof.Machine.execDeltaAns t hdr tag applied stale s
  | .poolWindowClose t w => Sys2Proof.Machine.execPoolWindowClose t w s
  | .poolWindowVisible t w => Sys2Proof.Machine.execPoolWindowVisible t w s
  | .previousValueExpiry t w => Sys2Proof.Machine.execPreviousValueExpiry t w s
  | .hotSlotEnd t => Sys2Proof.Machine.execHotSlotEnd t s
  | .replica t hdr b => Sys2Proof.Machine.execReplica t hdr b s
  | .replicaRemovalTime t table row => Sys2Proof.Machine.execReplicaRemovalTime t table row s
  | .map t hdr m cut => Sys2Proof.Machine.execMap t hdr m cut s
  | .migrateFreeze t => Sys2Proof.Machine.execMigrateFreeze t s
  | .migrateCopyDone t => Sys2Proof.Machine.execMigrateCopyDone t s
  | .migrateCut t => Sys2Proof.Machine.execMigrateCut t s
  | .migrateSwitch t => Sys2Proof.Machine.execMigrateSwitch t s
  | .tablePublishAbandon t table failed => Sys2Proof.Machine.execTablePublishAbandon t table failed s
  | .poolCheckpoint t => Sys2Proof.Machine.execPoolCheckpoint t s
  | .poolRowRebuildDone t table row => Sys2Proof.Machine.execPoolRowRebuildDone t table row s
  | .portTrainingDone t port lane => Sys2Proof.Machine.execPortTrainingDone t port lane s
  | .fecLock t port lane => Sys2Proof.Machine.execFecLock t port lane s
  | .linkHello t port neighbour lanes credits => Sys2Proof.Machine.execLinkHello t port neighbour lanes credits s
  | .linkFrameReceive t port hdr crcOk => Sys2Proof.Machine.execLinkFrameReceive t port hdr crcOk s
  | .linkReplayTimeout t port lane => Sys2Proof.Machine.execLinkReplayTimeout t port lane s
  | .laneFault t lane => Sys2Proof.Machine.execLaneFault t lane s
  | .laneMap t port lane join => Sys2Proof.Machine.execLaneMap t port lane join s
  | .sessionOpen t hdr roles => Sys2Proof.Machine.execSessionOpen t hdr roles s
  | .sessionAccept t hdr roles => Sys2Proof.Machine.execSessionAccept t hdr roles s
  | .sessionRefuse t hdr => Sys2Proof.Machine.execSessionRefuse t hdr s
  | .sessionClose t hdr => Sys2Proof.Machine.execSessionClose t hdr s
  | .sessionOpenTimeout t ident => Sys2Proof.Machine.execSessionOpenTimeout t ident s
  | .sessionIdleTimeout t idx => Sys2Proof.Machine.execSessionIdleTimeout t idx s
  | .keepaliveSend t => Sys2Proof.Machine.execKeepaliveSend t s
  | .keepalive t hdr sent => Sys2Proof.Machine.execKeepalive t hdr sent s
  | .ptpSync t port offset valid => Sys2Proof.Machine.execPtpSync t port offset valid s
  | .holdoverExpiry t => Sys2Proof.Machine.execHoldoverExpiry t s
  | .publishControl t hdr b => Sys2Proof.Machine.execPublishControl t hdr b s
  | .slateBook t hdr sweepNo items => Sys2Proof.Machine.execSlateBook t hdr sweepNo items s
  | .slate t hdr sweepNo items => Sys2Proof.Machine.execSlate t hdr sweepNo items s
  | .partnerList t hdr b => Sys2Proof.Machine.execPartnerList t hdr b s
  | .candReq t hdr b => Sys2Proof.Machine.execCandReq t hdr b s
  | .candAns t hdr b => Sys2Proof.Machine.execCandAns t hdr b s
  | .handoff t hdr b => Sys2Proof.Machine.execHandoff t hdr b s
  | .handoffAns t hdr tag status promise => Sys2Proof.Machine.execHandoffAns t hdr tag status promise s
  | .handoffCancel t hdr tag origin => Sys2Proof.Machine.execHandoffCancel t hdr tag origin s
  | .stepRecord t hdr b => Sys2Proof.Machine.execStepRecord t hdr b s
  | .pairOffer t hdr profile version origin period held => Sys2Proof.Machine.execPairOffer t hdr profile version origin period held s
  | .pairAccept t hdr => Sys2Proof.Machine.execPairAccept t hdr s
  | .pairAdmit t hdr b => Sys2Proof.Machine.execPairAdmit t hdr b s
  | .pairAns t hdr tag ok => Sys2Proof.Machine.execPairAns t hdr tag ok s
  | .pairAnsTimeout t f tag => Sys2Proof.Machine.execPairAnsTimeout t f tag s
  | .mirrorStep t hdr b => Sys2Proof.Machine.execMirrorStep t hdr b s
  | .mirrorAck t hdr step => Sys2Proof.Machine.execMirrorAck t hdr step s
  | .mirrorAckTimeout t step => Sys2Proof.Machine.execMirrorAckTimeout t step s
  | .heartbeatSend t => Sys2Proof.Machine.execHeartbeatSend t s
  | .heartbeat t hdr sent probe answer => Sys2Proof.Machine.execHeartbeat t hdr sent probe answer s
  | .peerSilenceTimeout t => Sys2Proof.Machine.execPeerSilenceTimeout t s
  | .probeTimeout t => Sys2Proof.Machine.execProbeTimeout t s
  | .takeover t hdr lost survivor => Sys2Proof.Machine.execTakeover t hdr lost survivor s
  | .getVersion t chan etnan => Sys2Proof.Machine.execGetVersion t chan etnan s
  | .getCapabilities t chan etnan => Sys2Proof.Machine.execGetCapabilities t chan etnan s
  | .negotiateAlgorithms t chan etnan algs => Sys2Proof.Machine.execNegotiateAlgorithms t chan etnan algs s
  | .getDigests t chan etnan => Sys2Proof.Machine.execGetDigests t chan etnan s
  | .getCertificate t chan etnan slot => Sys2Proof.Machine.execGetCertificate t chan etnan slot s
  | .challenge t chan etnan nonce => Sys2Proof.Machine.execChallenge t chan etnan nonce s
  | .getMeasurements t chan etnan index => Sys2Proof.Machine.execGetMeasurements t chan etnan index s
  | .keyExchange t chan etnan sid => Sys2Proof.Machine.execKeyExchange t chan etnan sid s
  | .finish t chan etnan sid good => Sys2Proof.Machine.execFinish t chan etnan sid good s
  | .keyUpdate t chan etnan sid => Sys2Proof.Machine.execKeyUpdate t chan etnan sid s
  | .spdmHeartbeat t chan etnan sid => Sys2Proof.Machine.execSpdmHeartbeat t chan etnan sid s
  | .endSession t chan etnan sid => Sys2Proof.Machine.execEndSession t chan etnan sid s
  | .eraseTenantKey t chan sid slot => Sys2Proof.Machine.execEraseTenantKey t chan sid slot s
  | .read t p => Sys2Proof.Machine.execRead t p s
  | .write t p => Sys2Proof.Machine.execWrite t p s
  | .describe t p => Sys2Proof.Machine.execDescribe t p s
  | .next t p => Sys2Proof.Machine.execNext t p s
  | .abort t p => Sys2Proof.Machine.execAbort t p s
  | .roleChallenge t p => Sys2Proof.Machine.execRoleChallenge t p s
  | .roleProve t p => Sys2Proof.Machine.execRoleProve t p s
  | .roleDrop t p => Sys2Proof.Machine.execRoleDrop t p s
  | .segmentTimeout t transport channel station => Sys2Proof.Machine.execSegmentTimeout t transport channel station s
  | .canSessionTimeout t station => Sys2Proof.Machine.execCanSessionTimeout t station s
  | .roleLockoutExpiry t transport => Sys2Proof.Machine.execRoleLockoutExpiry t transport s
  | .canFrameSent t => Sys2Proof.Machine.execCanFrameSent t s
  | .canHeartbeat t => Sys2Proof.Machine.execCanHeartbeat t s
  | .serve t p => Sys2Proof.Machine.execServe t p s
  | .drain t p => Sys2Proof.Machine.execDrain t p s
  | .retain t p => Sys2Proof.Machine.execRetain t p s
  | .resume t p => Sys2Proof.Machine.execResume t p s
  | .restartWarm t p => Sys2Proof.Machine.execRestartWarm t p s
  | .restartCold t p => Sys2Proof.Machine.execRestartCold t p s
  | .provision t p signer => Sys2Proof.Machine.execProvision t p signer s
  | .seal t p => Sys2Proof.Machine.execSeal t p s
  | .retire t p => Sys2Proof.Machine.execRetire t p s
  | .debugEnd t p => Sys2Proof.Machine.execDebugEnd t p s
  | .debugD1 t p => Sys2Proof.Machine.execDebugD1 t p s
  | .debugToken t p signer => Sys2Proof.Machine.execDebugToken t p signer s
  | .debugNonce t p => Sys2Proof.Machine.execDebugNonce t p s
  | .debugExpiry t => Sys2Proof.Machine.execDebugExpiry t s
  | .standby t p => Sys2Proof.Machine.execStandby t p s
  | .powerCap t p => Sys2Proof.Machine.execPowerCap t p s
  | .sweepPeriodWrite t p => Sys2Proof.Machine.execSweepPeriodWrite t p s
  | .sweepShareWrite t p => Sys2Proof.Machine.execSweepShareWrite t p s
  | .generationShareWrite t p => Sys2Proof.Machine.execGenerationShareWrite t p s
  | .glintRequest t p => Sys2Proof.Machine.execGlintRequest t p s
  | .recoveryData t p => Sys2Proof.Machine.execRecoveryData t p s
  | .recoveryCommitVerify t p signer digestOk secVersion fwVersion => Sys2Proof.Machine.execRecoveryCommitVerify t p signer digestOk secVersion fwVersion s
  | .recoveryCommitErase t p => Sys2Proof.Machine.execRecoveryCommitErase t p s
  | .diagnosticBist t p failing => Sys2Proof.Machine.execDiagnosticBist t p failing s
  | .eraseKeySlot t p => Sys2Proof.Machine.execEraseKeySlot t p s
  | .freeStoredImage t p => Sys2Proof.Machine.execFreeStoredImage t p s
  | .openPartner t p => Sys2Proof.Machine.execOpenPartner t p s
  | .closePartner t p => Sys2Proof.Machine.execClosePartner t p s
  | .powerApplied t mv => Sys2Proof.Machine.execPowerApplied t mv s
  | .modResetAssert t => Sys2Proof.Machine.execModResetAssert t s
  | .modResetRelease t hottestMilli => Sys2Proof.Machine.execModResetRelease t hottestMilli s
  | .p4WakeFrame t ident => Sys2Proof.Machine.execP4WakeFrame t ident s
  | .busOvervoltage t => Sys2Proof.Machine.execBusOvervoltage t s
  | .busHighBand t mv => Sys2Proof.Machine.execBusHighBand t mv s
  | .busSag t mv => Sys2Proof.Machine.execBusSag t mv s
  | .busSagEnd t mv => Sys2Proof.Machine.execBusSagEnd t mv s
  | .busUndervoltage t => Sys2Proof.Machine.execBusUndervoltage t s
  | .droopDetect t region cadence => Sys2Proof.Machine.execDroopDetect t region cadence s
  | .cadenceWindow t counts => Sys2Proof.Machine.execCadenceWindow t counts s
  | .thermalSample t compute hub hbmTemps flash => Sys2Proof.Machine.execThermalSample t compute hub hbmTemps flash s
  | .thermalShutdown t => Sys2Proof.Machine.execThermalShutdown t s
  | .hardwareTrip t => Sys2Proof.Machine.execHardwareTrip t s
  | .coolantWarning t flow inlet => Sys2Proof.Machine.execCoolantWarning t flow inlet s
  | .coolantLowFlow t flow => Sys2Proof.Machine.execCoolantLowFlow t flow s
  | .idleEntry t => Sys2Proof.Machine.execIdleEntry t s
  | .tempHistoryMinute t hottest => Sys2Proof.Machine.execTempHistoryMinute t hottest s
  | .startPhaseDone t slotId failing badImages => Sys2Proof.Machine.execStartPhaseDone t slotId failing badImages s
  | .startFailed t reason => Sys2Proof.Machine.execStartFailed t reason s
  | .crossingResync t crossing request ack => Sys2Proof.Machine.execCrossingResync t crossing request ack s
  | .residueMismatch t cell physical ballast what => Sys2Proof.Machine.execResidueMismatch t cell physical ballast what s
  | .blockWatchdog t cell hits => Sys2Proof.Machine.execBlockWatchdog t cell hits s
  | .stewardWatchdog t block hits => Sys2Proof.Machine.execStewardWatchdog t block hits s
  | .stewardHeartbeatTimeout t region hits => Sys2Proof.Machine.execStewardHeartbeatTimeout t region hits s
  | .crossingWatchdog t part number hits => Sys2Proof.Machine.execCrossingWatchdog t part number hits s
  | .dieBridgeWatchdog t die hub hits => Sys2Proof.Machine.execDieBridgeWatchdog t die hub hits s
  | .hbmUncorrectable t stack channel area object twice granules hits => Sys2Proof.Machine.execHbmUncorrectable t stack channel area object twice granules hits s
  | .stripeRewriteDone t model => Sys2Proof.Machine.execStripeRewriteDone t model s
  | .formatCheckFault t block c => Sys2Proof.Machine.execFormatCheckFault t block c s
  | .hubSramError t correctable => Sys2Proof.Machine.execHubSramError t correctable s
  | .processorFault t processor => Sys2Proof.Machine.execProcessorFault t processor s
  | .glintDone t outcomes => Sys2Proof.Machine.execGlintDone t outcomes s
  | .flashReadDone t f tag ord passage channel retried => Sys2Proof.Machine.execFlashReadDone t f tag ord passage channel retried s
  | .flashReadTimeout t f tag ord passage channel => Sys2Proof.Machine.execFlashReadTimeout t f tag ord passage channel s
  | .flashTargetFault t target images => Sys2Proof.Machine.execFlashTargetFault t target images s
  | .flashProgramFail t superblock => Sys2Proof.Machine.execFlashProgramFail t superblock s
  | .flashWriteDone t f tag => Sys2Proof.Machine.execFlashWriteDone t f tag s
  | .logSuperblockMerge t logical fresh => Sys2Proof.Machine.execLogSuperblockMerge t logical fresh s
  | .superblockErase t superblock => Sys2Proof.Machine.execSuperblockErase t superblock s
  | .dictDoorbell t f v => Sys2Proof.Machine.execDictDoorbell t f v s
  | .promptCopyDone t f tag => Sys2Proof.Machine.execPromptCopyDone t f tag s
  | .sketchReloadDone t die => Sys2Proof.Machine.execSketchReloadDone t die s
  | .tablePartLoaded t table => Sys2Proof.Machine.execTablePartLoaded t table s
  | .holdoverEntry t => Sys2Proof.Machine.execHoldoverEntry t s
  | .syncInterval t => Sys2Proof.Machine.execSyncInterval t s
  | .msixUnmask t f v => Sys2Proof.Machine.execMsixUnmask t f v s
  | .perstNRelease t => Sys2Proof.Machine.execPerstNRelease t s
  | .busHighBandExit t mv => Sys2Proof.Machine.execBusHighBandExit t mv s
  | .coolantRestored t flow inlet => Sys2Proof.Machine.execCoolantRestored t flow inlet s
  | .ppsOutPulse t level => Sys2Proof.Machine.execPpsOutPulse t level s

end Sys2Proof.Machine
end

