-- ==== Sys2Proof/WellFormed.lean ====
section
/-!
DEFINITION. Well-formed commands: operands that the manual's widths and counts admit. `exec` gives every command its meaning
whether it is well formed or not; a number outside its width can reach no field of the hardware, so claims may ask for `wf`.
-/
namespace Sys2Proof

/-! ### Checks on single operands -/

/-- A TIME64 (R5). -/
def timeOk (t : Nat) : Bool := decide (t < 2 ^ 64)

/-- A function number (R311). -/
def fnOk (f : Nat) : Bool := decide (f < 64)

/-- A number that names a request's owner: a function, or one of the keys above the functions that the model gives requests
of other modules. -/
def ownerOk (f : Nat) : Bool := decide (f ≤ 65536)

/-- A REQ_TAG (R319). -/
def tagOk (tag : Nat) : Bool := decide (tag < 2 ^ 64)

/-- A submission ring (R313). -/
def ringOk (r : Nat) : Bool := decide (r < 4)

/-- A doorbell's value (R313). -/
def word32 (v : Nat) : Bool := decide (v < 2 ^ 32)

/-- An access of 1, 2, 4 or 8 bytes, aligned to its width, inside BAR0's function registers, with a value of its width
(R312). -/
def accessOk (offset width value : Nat) : Bool :=
  [1, 2, 4, 8].contains width && offset % width == 0 && decide (offset < 0x20000) && decide (value < 2 ^ (8 * width))

/-- A ring selector. -/
def RingSel.wf : RingSel → Bool
  | .sub r => ringOk r
  | .cpl | .sbr => true

/-- An interrupt vector (R329). -/
def vectorOk (v : Nat) : Bool := decide (v < 4)

/-- A port (R273). -/
def portOk (p : Nat) : Bool := decide (p < 16)

/-- A lane of a port (R273). -/
def laneOk (l : Nat) : Bool := decide (l < 4)

/-- A partner table index (R280). -/
def indexOk (i : Nat) : Bool := decide (i < 4096)

/-- A fabric identifier (R278). -/
def identOk (i : Nat) : Bool := decide (i < 2 ^ 32)

/-- A model slot (R211). -/
def modelSlotOk (m : Nat) : Bool := decide (m < 64)

/-- A sequence table slot (R205). -/
def seqSlotOk (n : Nat) : Bool := decide (n < 65536)

/-- A passage's ordinal in a store (R110, R111). -/
def ordinalOk (n : Nat) : Bool := decide (n < 2 ^ 48)

/-- A global cell address of R12: its BLOCK is below 24, bit 5 is 0, its CELL is below 16. -/
def cellOk (a : Nat) : Bool := decide (a < 65536) && decide (a / 64 % 32 < 24) && decide (a / 32 % 2 = 0) && decide (a % 32 < 16)

/-- A physical CELL value (R13). -/
def physicalOk (c : Nat) : Bool := decide (c ≤ 16)

/-- A global block number (R12). -/
def blockOk (b : Nat) : Bool := decide (b < 768)

/-- A global region number (R12). -/
def regionOk (r : Nat) : Bool := decide (r < 32)

/-- A compute die (R10). -/
def dieOk (d : Nat) : Bool := decide (d < 4)

/-- An HBM stack and one of its channels (R10, R11). -/
def stackOk (s c : Nat) : Bool := decide (s < 24) && decide (c < 32)

/-- An HBM area: images, sketch store, pool, request pool (R101). -/
def areaOk (a : Nat) : Bool := decide (a < 4)

/-- A clocked part of R387 and its number: stacks, lanes, flash channels, the CAN FD controller, the timer. -/
def crossingOk (part number : Nat) : Bool :=
  match part with
  | 0 => decide (number < 24)
  | 1 => decide (number < 64)
  | 2 => decide (number < 32)
  | 3 | 4 => number == 0
  | _ => false

/-- A flash target, channel, superblock (R358). -/
def targetOk (k : Nat) : Bool := decide (k < 128)
def channelOk (c : Nat) : Bool := decide (c < 32)
def superblockOk (b : Nat) : Bool := decide (b < 325504)

/-- A voltage on the bus that the sensor reads (R412). -/
def busOk (mv : Nat) : Bool := decide (mv < 100000)

/-- An activity count: a region's ceiling is 2.0 × 10^9 handshakes per second (R16). -/
def cadenceOk (c : Nat) : Bool := decide (c ≤ 2000)

/-- A fault record's count of granules (R381). -/
def granulesOk (n : Nat) : Bool := word32 n

/-! ### Checks on compound operands -/

/-- A fetched descriptor brings at most 256 buffers (R320). -/
def Fetched.wf (x : Fetched) : Bool := decide (x.list.length ≤ 256)

/-- The bytes of a payload are as many as its descriptor's PAYLOAD_LEN says, or none where a check of R16 ends the request before
they are read (R208, R319). -/
def hostOk (x : Fetched) (host : List Byte) : Bool :=
  host.isEmpty || host.length == (x.desc.extractLsb' 224 32).toNat

/-- A payload's parts (R208): the sketch is absent or of a format's length, an inline vector has at most 1,536 elements, at most
512 passage IDs stand in it. -/
def Payload.wf (p : Payload) : Bool :=
  [0, 32, 64, 128].contains p.sketch.length && decide (p.vec.length ≤ 1536) && decide (p.ids.length ≤ 512)

/-- A PDU carries at most 48 bytes on CAN FD and 4,080 elsewhere, on a channel of its transport, under an 11-bit identifier
(R338, R341, R347). -/
def Pdu.wf (p : Pdu) : Bool :=
  (match p.transport with
    | .can => p.channel == 0 && decide (p.data.length ≤ 48)
    | .pcie => fnOk p.channel && decide (p.data.length ≤ 4080)
    | .etnan => indexOk p.channel && decide (p.data.length ≤ 4080))
  && decide (p.ident < 2048)

/-- An SPDM channel: a function's mailbox, or a partner table index (R426). -/
def chanOk (chan : Nat) (etnan : Bool) : Bool := if etnan then indexOk chan else fnOk chan

/-- An index image's lists (R110, R113, R114): a member table entry per member, records in ascending order below RECORD_COUNT,
sketches of L bits. -/
def IndexImage.wf (i : IndexImage) : Bool :=
  decide (i.format ≤ 2) && decide (1 ≤ i.members) && decide (i.members ≤ 2048)
    && (i.records.all fun r => decide (r.ord < i.recordCount) && decide (r.sketch < 2 ^ (256 * 2 ^ i.format)))
    && decide ((i.records.map (·.ord)).Pairwise (· < ·))

/-- A vocabulary (R174..R176): 256 byte tokens, an entry per token, slots inside the pair table. -/
def VocabImage.wf (v : VocabImage) : Bool :=
  v.byteMap.length == 256 && v.ids.length == v.tokenCount && v.slots.all fun x => decide (x.1 < 2 ^ v.pairBits)

/-- An image whose lists have the lengths its header gives. -/
def Image.wf : Image → Bool
  | .model m => decide (m.endTokens.length ≤ 4)
  | .vocab v => v.wf
  | .template m => m.segs.length == m.segCount
  | .clist c => decide (c.entries.length * 72 + 16 ≤ c.length)
  | .index i => i.wf
  | .table m => m.rows.all fun r => decide (r.1 < m.desc.rowCount)
  | .rangeMap m => decide (m.ranges.length ≤ 65536) && decide (m.descs.length ≤ 1024)

/-- A verified image has a 384-bit digest. -/
def SignedImage.wf (x : SignedImage) : Bool := x.img.wf && decide (x.digest < 2 ^ 384)

/-- An image that a payload brings is well formed. -/
def LoadPayload.wf (p : LoadPayload) : Bool := p.image.all SignedImage.wf
def PublishPayload.wf (p : PublishPayload) : Bool := p.image.all SignedImage.wf

/-- Rows of a gather carry a weight each or none (R245, R246). -/
def GatherPayload.wf (g : GatherPayload) : Bool := g.weights.isEmpty || g.weights.length == g.rows.length

/-- Requests that a fault hit. -/
def hitsOk (l : List Hit) : Bool := l.all fun h => ownerOk h.fn && tagOk h.tag

/-- A glint's outcomes name cells by address and lanes by number (R393). -/
def GlintOutcome.wf (o : GlintOutcome) : Bool := if o.isLane then regionOk o.unit else cellOk o.unit

/-- A candidate message's items (R160). -/
def CandBody.wf (b : CandBody) : Bool := tagOk b.tag && b.items.all fun i => ordinalOk i.ord

/-- A record's parts: a partner's record has at most 65,536 streams (R205, R228). -/
def RecordBody.wf (b : RecordBody) : Bool := decide (b.streams.length ≤ 65536)

/-! ### Commands -/

/-- The TIME64 at which a command takes effect. -/
def Instr.time : Instr → Nat
  | .slateClose t | .sweepStart t | .stepBatchRecordWrite t | .hotSlotEnd t | .migrateFreeze t
  | .migrateCopyDone t | .migrateCut t | .migrateSwitch t | .poolCheckpoint t | .keepaliveSend t
  | .holdoverExpiry t | .heartbeatSend t | .peerSilenceTimeout t | .probeTimeout t | .canFrameSent t
  | .canHeartbeat t | .debugExpiry t | .modResetAssert t | .busOvervoltage t | .busUndervoltage t
  | .thermalShutdown t | .hardwareTrip t | .idleEntry t | .holdoverEntry t | .syncInterval t
  | .perstNRelease t => t
  | .cancel t _ | .nop t _ | .functionLevelReset t _ | .pcieLinkReset t _ | .prefetchCheckpoint t _
  | .sweepEnd t _ | .partnerListDeadline t _ | .indexLoadDone t _ | .baseStepBoundary t _ | .verificationEnd t _
  | .poolWindowClose t _ | .poolWindowVisible t _ | .previousValueExpiry t _ | .laneFault t _ | .sessionRefuse t _
  | .sessionClose t _ | .sessionOpenTimeout t _ | .sessionIdleTimeout t _ | .pairAccept t _ | .mirrorAckTimeout t _
  | .read t _ | .write t _ | .describe t _ | .next t _ | .abort t _
  | .roleChallenge t _ | .roleProve t _ | .roleDrop t _ | .canSessionTimeout t _ | .roleLockoutExpiry t _
  | .serve t _ | .drain t _ | .retain t _ | .resume t _ | .restartWarm t _
  | .restartCold t _ | .seal t _ | .retire t _ | .debugEnd t _ | .debugD1 t _
  | .debugNonce t _ | .standby t _ | .powerCap t _ | .sweepPeriodWrite t _ | .sweepShareWrite t _
  | .generationShareWrite t _ | .glintRequest t _ | .recoveryData t _ | .recoveryCommitErase t _ | .eraseKeySlot t _
  | .freeStoredImage t _ | .openPartner t _ | .closePartner t _ | .powerApplied t _ | .modResetRelease t _
  | .p4WakeFrame t _ | .busHighBand t _ | .busSag t _ | .busSagEnd t _ | .cadenceWindow t _
  | .coolantLowFlow t _ | .tempHistoryMinute t _ | .startFailed t _ | .stripeRewriteDone t _ | .hubSramError t _
  | .processorFault t _ | .glintDone t _ | .flashProgramFail t _ | .superblockErase t _ | .sketchReloadDone t _
  | .tablePartLoaded t _ | .busHighBandExit t _ | .ppsOutPulse t _ => t
  | .cplHeadDoorbell t _ _ | .sbrHeadDoorbell t _ _ | .ringEnable t _ _ | .ringDisable t _ _ | .funcEventClear t _ _
  | .ask t _ _ | .retrieve t _ _ | .embed t _ _ | .rerank t _ _ | .pack t _ _
  | .generate t _ _ | .tableGather t _ _ | .tableUpdate t _ _ | .tablePublishTable t _ _ | .tablePublishMap t _ _
  | .tablePublishMigrate t _ _ | .modelLoad t _ _ | .modelSwap t _ _ | .indexPublish t _ _ | .copyDone t _ _
  | .vfEnableChange t _ _ | .msixHoldoffExpiry t _ _ | .splitMemberTimeout t _ _ | .tokenizeDone t _ _ | .mergeDone t _ _
  | .rerankDone t _ _ | .selectDone t _ _ | .passageFetchDone t _ _ | .packDone t _ _ | .remoteWaitExpiry t _ _
  | .handoffWaitExpiry t _ _ | .sliceEnd t _ _ | .draftFinish t _ _ | .rowReq t _ _ | .rowAns t _ _
  | .gatherDone t _ _ | .delta t _ _ | .replica t _ _ | .replicaRemovalTime t _ _ | .tablePublishAbandon t _ _
  | .poolRowRebuildDone t _ _ | .portTrainingDone t _ _ | .fecLock t _ _ | .linkReplayTimeout t _ _ | .sessionOpen t _ _
  | .sessionAccept t _ _ | .keepalive t _ _ | .publishControl t _ _ | .partnerList t _ _ | .candReq t _ _
  | .candAns t _ _ | .handoff t _ _ | .stepRecord t _ _ | .pairAdmit t _ _ | .pairAnsTimeout t _ _
  | .mirrorStep t _ _ | .mirrorAck t _ _ | .getVersion t _ _ | .getCapabilities t _ _ | .getDigests t _ _
  | .provision t _ _ | .debugToken t _ _ | .diagnosticBist t _ _ | .droopDetect t _ _ | .coolantWarning t _ _
  | .blockWatchdog t _ _ | .stewardWatchdog t _ _ | .stewardHeartbeatTimeout t _ _ | .formatCheckFault t _ _ | .flashTargetFault t _ _
  | .flashWriteDone t _ _ | .logSuperblockMerge t _ _ | .dictDoorbell t _ _ | .promptCopyDone t _ _ | .msixUnmask t _ _
  | .coolantRestored t _ _ => t
  | .subTailDoorbell t _ _ _ | .copy t _ _ _ | .crossEncodeDone t _ _ _ | .modelLoadDone t _ _ _ | .gatherWaitExpiry t _ _ _
  | .map t _ _ _ | .linkFrameReceive t _ _ _ | .laneMap t _ _ _ | .ptpSync t _ _ _ | .slateBook t _ _ _
  | .slate t _ _ _ | .handoffCancel t _ _ _ | .pairAns t _ _ _ | .takeover t _ _ _ | .negotiateAlgorithms t _ _ _
  | .getCertificate t _ _ _ | .challenge t _ _ _ | .getMeasurements t _ _ _ | .keyExchange t _ _ _ | .keyUpdate t _ _ _
  | .spdmHeartbeat t _ _ _ | .endSession t _ _ _ | .eraseTenantKey t _ _ _ | .segmentTimeout t _ _ _ | .startPhaseDone t _ _ _
  | .crossingResync t _ _ _ | .crossingWatchdog t _ _ _ | .dieBridgeWatchdog t _ _ _ => t
  | .funcRegisterWrite t _ _ _ _ | .embedDone t _ _ _ _ | .deltaAns t _ _ _ _ | .linkHello t _ _ _ _ | .handoffAns t _ _ _ _
  | .heartbeat t _ _ _ _ | .finish t _ _ _ _ | .thermalSample t _ _ _ _ | .residueMismatch t _ _ _ _ => t
  | .recoveryCommitVerify t _ _ _ _ _ | .flashReadTimeout t _ _ _ _ _ => t
  | .splitMemberAnswer t _ _ _ _ _ _ | .pairOffer t _ _ _ _ _ _ | .flashReadDone t _ _ _ _ _ _ => t
  | .hbmUncorrectable t _ _ _ _ _ _ _ => t

/-- A command's operands other than its time are those the manual admits. -/
def Instr.operandsOk : Instr → Bool
  | .subTailDoorbell _ f r v => fnOk f && ringOk r && word32 v
  | .cplHeadDoorbell _ f v | .sbrHeadDoorbell _ f v | .dictDoorbell _ f v => fnOk f && word32 v
  | .ringEnable _ f ring | .ringDisable _ f ring => fnOk f && ring.wf
  | .funcEventClear _ f _ | .functionLevelReset _ f => fnOk f
  | .funcRegisterWrite _ f offset width value => fnOk f && accessOk offset width value
  | .ask _ x host | .retrieve _ x host | .embed _ x host | .rerank _ x host | .pack _ x host | .generate _ x host =>
    x.wf && hostOk x host
  | .cancel _ x | .nop _ x => x.wf
  | .tableGather _ x g => x.wf && g.wf
  | .tableUpdate _ x _ => x.wf
  | .tablePublishTable _ x p | .tablePublishMap _ x p | .tablePublishMigrate _ x p => x.wf && p.wf
  | .modelLoad _ x p | .modelSwap _ x p | .indexPublish _ x p => x.wf && p.wf
  | .copy _ x _ data => x.wf && word32 data.length
  | .copyDone _ f tag | .promptCopyDone _ f tag => fnOk f && tagOk tag
  | .pcieLinkReset _ _ | .perstNRelease _ | .slateClose _ | .sweepStart _ | .stepBatchRecordWrite _ | .hotSlotEnd _
  | .migrateFreeze _ | .migrateCopyDone _ | .migrateCut _ | .migrateSwitch _ | .poolCheckpoint _ | .keepaliveSend _
  | .holdoverEntry _ | .holdoverExpiry _ | .syncInterval _ | .heartbeatSend _ | .peerSilenceTimeout _ | .probeTimeout _
  | .canFrameSent _ | .canHeartbeat _ | .debugExpiry _ | .modResetAssert _ | .busOvervoltage _ | .busUndervoltage _
  | .thermalShutdown _ | .hardwareTrip _ | .idleEntry _ | .ppsOutPulse _ _ | .hubSramError _ _ => true
  | .vfEnableChange _ _ num => decide (num ≤ 63)
  | .msixHoldoffExpiry _ f v | .msixUnmask _ f v => fnOk f && vectorOk v
  | .splitMemberAnswer _ f tag group width _ n => ownerOk f && tagOk tag && decide (group < width) && indexOk n
  | .splitMemberTimeout _ f tag | .tokenizeDone _ f tag | .mergeDone _ f tag | .rerankDone _ f tag | .selectDone _ f tag
  | .passageFetchDone _ f tag | .packDone _ f tag | .remoteWaitExpiry _ f tag | .handoffWaitExpiry _ f tag
  | .gatherDone _ f tag | .pairAnsTimeout _ f tag | .flashWriteDone _ f tag => ownerOk f && tagOk tag
  | .embedDone _ f tag x outs => ownerOk f && tagOk tag && decide (x.length ≤ 65535) && decide (outs.length ≤ 65535)
  | .prefetchCheckpoint _ quarter => decide (1 ≤ quarter) && decide (quarter ≤ 3)
  | .sweepEnd _ diffs => diffs.all fun d => regionOk d.1
  | .partnerListDeadline _ sweepNo => timeOk sweepNo
  | .indexLoadDone _ _ => true
  | .crossEncodeDone _ f tag logits => ownerOk f && tagOk tag && decide (logits.length ≤ 512)
  | .baseStepBoundary _ lateNs => timeOk lateNs
  | .sliceEnd _ id _ => timeOk id
  | .draftFinish _ slot _ => seqSlotOk slot
  | .verificationEnd _ rows => rows.all fun r => seqSlotOk r.slot && r.cells.all cellOk
  | .modelLoadDone _ f tag slot => ownerOk f && tagOk tag && modelSlotOk slot
  | .rowReq _ _ b => word32 b.table && timeOk b.row && timeOk b.time
  | .rowAns _ _ b => word32 b.table && timeOk b.row && timeOk b.expiry
  | .gatherWaitExpiry _ f tag row => ownerOk f && tagOk tag && timeOk row
  | .delta _ _ b => word32 b.table && timeOk b.row
  | .deltaAns _ _ tag _ _ => tagOk tag
  | .poolWindowClose _ w | .poolWindowVisible _ w | .previousValueExpiry _ w => timeOk w
  | .replica _ _ b => word32 b.table && timeOk b.row
  | .replicaRemovalTime _ table row | .poolRowRebuildDone _ table row => word32 table && timeOk row
  | .map _ _ m cut => (Image.rangeMap m).wf && timeOk cut
  | .tablePublishAbandon _ table _ | .tablePartLoaded _ table => word32 table
  | .portTrainingDone _ port lane | .fecLock _ port lane | .linkReplayTimeout _ port lane => portOk port && laneOk lane
  | .linkHello _ port neighbour _ credits => portOk port && identOk neighbour && credits.length == 6
  | .linkFrameReceive _ port _ _ => portOk port
  | .laneFault _ lane => decide (lane < 64)
  | .laneMap _ port lane _ => portOk port && laneOk lane
  | .sessionOpen _ _ roles | .sessionAccept _ _ roles => decide (roles < 256)
  | .sessionRefuse _ _ | .sessionClose _ _ | .pairAccept _ _ => true
  | .sessionOpenTimeout _ ident => identOk ident
  | .sessionIdleTimeout _ idx => indexOk idx
  | .keepalive _ _ sent | .heartbeat _ _ sent _ _ => timeOk sent
  | .ptpSync _ port _ _ => portOk port
  | .publishControl _ _ b => decide (b.kind ≤ 3) && timeOk b.value
  | .slateBook _ _ sweepNo items | .slate _ _ sweepNo items => timeOk sweepNo && items.all fun i => tagOk i.tag && decide (i.cls ≤ 1)
  | .partnerList _ _ b => decide (b.entries.length ≤ 4096)
  | .candReq _ _ b | .candAns _ _ b => b.wf
  | .handoff _ _ b => decide (b.stops.length ≤ 8)
  | .handoffAns _ _ tag _ _ => tagOk tag
  | .handoffCancel _ _ tag origin => tagOk tag && identOk origin
  | .stepRecord _ _ b => b.wf
  | .pairOffer _ _ profile version origin period _ =>
    decide (profile < 256) && decide (version < 65536) && timeOk origin && timeOk period
  | .pairAdmit _ _ b => b.payload.wf && fnOk b.fn
  | .pairAns _ _ tag _ => tagOk tag
  | .mirrorStep _ _ b => timeOk b.step && b.entries.all fun e => seqSlotOk e.slot
  | .mirrorAck _ _ step | .mirrorAckTimeout _ step => timeOk step
  | .takeover _ _ lost survivor => identOk lost && identOk survivor
  | .getVersion _ chan etnan | .getCapabilities _ chan etnan | .getDigests _ chan etnan | .challenge _ chan etnan _ => chanOk chan etnan
  | .negotiateAlgorithms _ chan etnan algs => chanOk chan etnan && decide (algs < 16)
  | .getCertificate _ chan etnan slot => chanOk chan etnan && decide (slot < 8)
  | .getMeasurements _ chan etnan index => chanOk chan etnan && decide (index < 256)
  | .keyExchange _ chan etnan sid | .keyUpdate _ chan etnan sid | .spdmHeartbeat _ chan etnan sid | .endSession _ chan etnan sid =>
    chanOk chan etnan && word32 sid
  | .finish _ chan etnan sid _ => chanOk chan etnan && word32 sid
  | .eraseTenantKey _ chan sid slot => fnOk chan && word32 sid && decide (slot < 256)
  | .read _ p | .write _ p | .describe _ p | .next _ p | .abort _ p | .roleChallenge _ p | .roleProve _ p | .roleDrop _ p
  | .serve _ p | .drain _ p | .retain _ p | .resume _ p | .restartWarm _ p | .restartCold _ p | .seal _ p | .retire _ p
  | .debugEnd _ p | .debugD1 _ p | .debugNonce _ p | .standby _ p | .powerCap _ p | .sweepPeriodWrite _ p | .sweepShareWrite _ p
  | .generationShareWrite _ p | .glintRequest _ p | .recoveryData _ p | .recoveryCommitErase _ p | .eraseKeySlot _ p
  | .freeStoredImage _ p | .openPartner _ p | .closePartner _ p => p.wf
  | .provision _ p _ | .debugToken _ p _ => p.wf
  | .recoveryCommitVerify _ p _ _ secVersion fwVersion => p.wf && word32 secVersion && word32 fwVersion
  | .diagnosticBist _ p failing => p.wf && failing.all fun d => decide (d < 5)
  | .segmentTimeout _ _ channel station => indexOk channel && decide (station < 255)
  | .canSessionTimeout _ station => decide (1 ≤ station) && decide (station ≤ 254)
  | .roleLockoutExpiry _ _ => true
  | .powerApplied _ mv | .busHighBand _ mv | .busSag _ mv | .busSagEnd _ mv | .busHighBandExit _ mv => busOk mv
  | .modResetRelease _ hottestMilli => decide (hottestMilli < 1000000)
  | .p4WakeFrame _ ident => decide (ident < 2048)
  | .droopDetect _ region cadence => regionOk region && cadenceOk cadence
  | .cadenceWindow _ counts => counts.length == 32
  | .thermalSample _ compute _ hbmTemps flash => compute.length == 4 && hbmTemps.length == 24 && flash.length == 128
  | .coolantWarning _ flow _ | .coolantLowFlow _ flow | .coolantRestored _ flow _ => word32 flow
  | .tempHistoryMinute _ _ => true
  | .startPhaseDone _ slotId failing badImages => decide (slotId < 256) && (failing ++ badImages).all word32
  | .startFailed _ reason => decide (reason < 256)
  | .crossingResync _ crossing _ _ => decide (crossing < 256)
  | .residueMismatch _ cell physical _ what => cellOk cell && physicalOk physical && hitsOk what.hits
  | .blockWatchdog _ cell hits => cellOk cell && hitsOk hits
  | .stewardWatchdog _ block hits => blockOk block && hitsOk hits
  | .stewardHeartbeatTimeout _ region hits => regionOk region && hitsOk hits
  | .crossingWatchdog _ part number hits => crossingOk part number && hitsOk hits
  | .dieBridgeWatchdog _ die _ hits => dieOk die && hitsOk hits
  | .hbmUncorrectable _ stack channel area object _ granules hits =>
    stackOk stack channel && areaOk area && timeOk object && granulesOk granules && hitsOk hits
  | .stripeRewriteDone _ model => decide (model ≤ 64)
  | .formatCheckFault _ block c => blockOk block && (match c with
    | .loader tile _ => word32 tile
    | _ => true)
  | .processorFault _ processor => decide (processor < 6)
  | .glintDone _ outcomes => outcomes.all GlintOutcome.wf
  | .flashReadDone _ f tag ord _ channel _ => ownerOk f && tagOk tag && ordinalOk ord && channelOk channel
  | .flashReadTimeout _ f tag ord _ channel => ownerOk f && tagOk tag && ordinalOk ord && channelOk channel
  | .flashTargetFault _ target images => targetOk target && images.all word32
  | .flashProgramFail _ superblock | .superblockErase _ superblock => superblockOk superblock
  | .logSuperblockMerge _ _ fresh => superblockOk fresh
  | .sketchReloadDone _ die => dieOk die

/-- A well-formed command. -/
def Instr.wf (i : Instr) : Bool := timeOk i.time && i.operandsOk

end Sys2Proof
end

