-- ==== Sys2Proof/Safety.lean ====
section
/-!
DEFINITION. What claims about runs are stated in: the legality of a state's parts, and runs that no fault or refusal ends.
-/
namespace Sys2Proof.Machine

/-- A ring's registers point into the ring (R316, R317). -/
def SubRing.inRange (r : SubRing) : Prop := r.enable = true → r.head < 2 ^ r.size ∧ r.tail < 2 ^ r.size

/-- Every addressed buffer has the canonical form: request windows (R350), function scratch (R322), the stores of the memory tiers (R86),
recovery data (R411). -/
def State.buffersOk (s : State) : Prop :=
  (∀ f ∈ s.host.fns, f.dictReq.wf = true) ∧ (∀ p ∈ s.img.scratch, p.2.wf = true) ∧ s.tiers.mem.wf = true ∧
    s.mod.staged.wf = true

/-- The functions are 64 (R311), the processors' tables have their sizes. -/
def State.shapeOk (s : State) : Prop :=
  s.host.fns.length = 64 ∧ s.fab.ports.length = 16 ∧ s.power.cadence.length = 32

/-- Order of the lifecycle (R419): no transition goes back. -/
def Lifecycle.rank : Lifecycle → Nat
  | .blank => 0 | .opened => 1 | .sealed => 2 | .retired => 3

/-- What no command may take back: time, the lifecycle, the fused version, the grown fences of the flash. -/
structure State.Forward (s s' : State) : Prop where
  time : s.now ≤ s'.now
  life : s.sec.life.rank ≤ s'.sec.life.rank
  fuse : s.mod.fuse ≤ s'.mod.fuse

/-- A descriptor row at `t` fetches `x`, and checks 1 to 6 hold (R317, R323): `q` is the request, `s1` the state after the
fetch. -/
def State.TakesRow (s : State) (t op : Nat) (x : Fetched) (deferSwap : Bool) (q : Request) (s1 : State) : Prop :=
  ∃ f r, nextFetch (s.tick t) = some (f, r) ∧ q = requestOf (s.tick t) f r x.desc ∧ s1 = fetchFrom (s.tick t) f r x.desc ∧
    checks16 s1 f op x deferSwap = none

/-- A message on an OPEN session of its source, next in its class's sequence, with the header of its type (R279, R280, R287):
`x` is the session after it, `s1` the state in which its effect begins. -/
def State.Delivers (s : State) (t msg cls : Nat) (hdr : BitVec 256) (x : Session) (s1 : State) : Prop :=
  ∃ y, (s.tick t).addressed hdr = true ∧ (s.tick t).sessionFor hdr = some y ∧ y.rxSeq.getD (hClass hdr) 0 = hTseq hdr ∧
    hdrOk msg cls hdr = true ∧ cls < 6 ∧ x = advanceSeq y cls ∧
    s1 = ((s.tick t).heard (hSrc hdr)).modSession y.idx fun z => advanceSeq z cls

/-- A dictionary PDU that reaches the hub, that its transport can take, with checks 1 and 2 of R344: `d` is its session, `h` its
header, `bs` the bytes of its data, `s1` the state in which its operation begins. -/
def State.Serves (s : State) (t : Nat) (p : Pdu) (h : Nat) (bs : List Byte) (d : DictSession) (s1 : State) : Prop :=
  ∃ held s2, (s.tick t).arrived p = some (h, held) ∧ s2 = (if p.transport = .etnan then (s.tick t).control p.channel else s.tick t) ∧
    s2.canBusy p h = false ∧ p.waiting < 64 ∧ headerOk p.transport h = true ∧ pLen h ≤ held.length ∧
    (lenOf (pOp h)).any (· ≠ pLen h) = false ∧ bs = held.take (pLen h) ∧
    d = (s2.count 0x103010 1).freshParts ((s2.count 0x103010 1).sessionOf p h) ∧ s1 = (s2.count 0x103010 1).putSession d

/-- The last PDU of a write of `value` to an entry, by a session whose role and in a state that allow it (R335, R344, R346, R356):
`bs` is what this PDU brings of the value; the entry's own rules and effect begin in `s2`. -/
def State.Writes (s : State) (t : Nat) (p : Pdu) (h key : Nat) (bs value : List Byte) (d : DictSession) (s2 : State) : Prop :=
  ∃ r s1 held, s.Serves t p h bs d s1 ∧ pOp h = 2 ∧ pKey h = key ∧ odFind key = some r ∧ r.acc ≠ .const ∧ r.acc ≠ .ro ∧
    r.wr.code ≤ d.role.code ∧ heldBefore d key h = some (held, value.length) ∧ value = held ++ bs ∧ pLast h = true ∧
    lengthOk r key value.length = true ∧ writeState s1.mod.op r key = true ∧ s2 = s1.dropPartial d

/-- `s'` is what `s` becomes when the rails go off (R401, R414, R424, R438). -/
def State.RailsOff (s' s : State) : Prop :=
  s'.mod.op = .off ∧ s'.mod.phase = 0 ∧ s'.mod.hbmHeld = false ∧ s'.mod.baseHeld = false ∧ s'.reqs = [] ∧ s'.seq = {} ∧
    s'.step = {} ∧ s'.sweep = {} ∧ s'.dict.sessions = [] ∧ s'.fab.sessions = [] ∧ s'.sec.debug = .d0 ∧ s'.sec.kek = false ∧
    s'.sec.life = s.sec.life ∧ s'.sec.slots = s.sec.slots ∧ s'.pins.pwrGood = false

/-- `s'` is at the beginning of a start that follows `s`: warm as `w` allows unless a D3 ended (R399, R401, R403, R431). -/
def State.StartBegins (s' s : State) (w : Bool) : Prop :=
  s'.mod.op = .starting ∧ s'.mod.phase = 1 ∧ s'.mod.warm = (w && !s.mod.forceCold && decide (s.sec.debug ≠ .d3)) ∧
    s'.mod.startBegan = s'.now ∧ s'.mod.startCount = s.mod.startCount + 1 ∧ s'.mod.hbmRetained = false ∧ s'.reqs = [] ∧
    s'.seq = {} ∧ s'.step = {} ∧ s'.sweep = {} ∧ s'.dict.sessions = [] ∧ s'.fab.sessions = [] ∧ s'.sec.debug = .d0

/-- The time, descriptor, opcode and deferred-swap mark of a descriptor row (R318, R324). -/
def rowOf (i : Instr) : Option (Nat × Fetched × Nat × Bool) :=
  match i with
  | .ask t x _ => some (t, x, 0x01, false)
  | .retrieve t x _ => some (t, x, 0x02, false)
  | .embed t x _ => some (t, x, 0x03, false)
  | .rerank t x _ => some (t, x, 0x04, false)
  | .pack t x _ => some (t, x, 0x05, false)
  | .generate t x _ => some (t, x, 0x06, false)
  | .cancel t x => some (t, x, 0x07, false)
  | .tableGather t x _ => some (t, x, 0x10, false)
  | .tableUpdate t x _ => some (t, x, 0x11, false)
  | .tablePublishTable t x _ => some (t, x, 0x12, false)
  | .tablePublishMap t x _ => some (t, x, 0x12, false)
  | .tablePublishMigrate t x _ => some (t, x, 0x12, false)
  | .modelLoad t x _ => some (t, x, 0x20, false)
  | .modelSwap t x p => some (t, x, 0x21, lDefer p.blk)
  | .indexPublish t x _ => some (t, x, 0x22, false)
  | .copy t x _ _ => some (t, x, 0x30, false)
  | .nop t x => some (t, x, 0x3F, false)
  | _ => none

/-- The state after the acceptance of a request with one result (R29, R33, R36): one more outstanding request with a promise of
KIND 1. Its work may have begun. -/
def State.HoldsOne (s' s1 : State) (q : Request) : Prop :=
  ∃ r, s'.reqs = s1.reqs ++ [r] ∧ r.fn = q.fn ∧ r.tag = q.tag ∧ r.op = q.op ∧ r.lc = q.lc ∧ r.promise.kind = 1 ∧
    r.promise.admitTime = s1.admitTime ∧ r.promise.lc = q.lc ∧ (q.lc = false → r.promise.firstDue = 0) ∧
    s'.adm.lastAdmit = max s1.adm.lastAdmit s1.admitTime ∧ s'.sec = s1.sec ∧ s'.flash = s1.flash ∧ s'.index = s1.index ∧
    s'.seq = s1.seq

/-- The same where no row of the pool is touched yet. -/
def State.Holds (s' s1 : State) (q : Request) : Prop := s'.HoldsOne s1 q ∧ s'.pool = s1.pool

/-- The state after the acceptance of a stream with n base steps to a model step (R33, R205, R207). -/
def State.Streams (s' s1 : State) (q : Request) (n : Nat) : Prop :=
  ∃ r, s'.reqs = s1.reqs ++ [r] ∧ r.fn = q.fn ∧ r.tag = q.tag ∧ r.gen = true ∧ r.promise.kind = 0 ∧ r.promise.steps = n ∧
    r.promise.admitTime = s1.admitTime ∧ r.promise.periodNs = (if q.lc then 50000 * n else 0) ∧
    (∃ k g, r.promise.handle = handleOf k g ∧ (s'.slot k).state = .reserved ∧ (s'.slot k).gen = g ∧ (s1.slot k).state = .free) ∧
    s'.sec = s1.sec ∧ s'.flash = s1.flash ∧ s'.index = s1.index ∧ s'.pool = s1.pool

/-- The state after the acceptance of a load (R235, R236). -/
def State.Loads (s' s1 : State) (q : Request) (y : SignedImage) : Prop :=
  ∃ r, s'.reqs = s1.reqs ++ [r] ∧ r.fn = q.fn ∧ r.tag = q.tag ∧ r.promise.kind = 1 ∧ r.promise.lc = q.lc ∧
    r.load.any (fun l => l.image = y && !l.written && !l.stored) = true ∧ s'.sec = s1.sec ∧ s'.flash = s1.flash ∧ s'.seq = s1.seq

/-- A run of `k` commands is safe when none of them ends in a fault or a refusal. -/
def State.safeRun (s : State) (k : Nat) : Prop := ∃ s', Host.Core.run ⟨State, Fault, Refusal, Machine.step, Machine.State.reset⟩ k s = .next s'

end Sys2Proof.Machine
end

