-- ==== Sys2Proof/Certificates/Slice0/Obligations.lean ====
section
/-!
DEFINITION. The statements for the provers, in the order of the opcode table's families. Each says for its commands that `exec`
answers a next state, and what that state holds; the docstring names the rules.
-/
open Sys2Proof Sys2Proof.Machine

/-! ### The block -/

/-- A step takes the command at the front of the queue and answers what `exec` answers on the state with the queue's rest; with
nothing waiting the block idles (log 10). -/
def Obligations.StepRunsFrontCommand : Prop :=
  (∀ (s : State) (c : Instr) (rest : List Instr), s.pending = c :: rest → Machine.step s = exec c { s with pending := rest }) ∧
  (∀ s : State, s.pending = [] → Machine.step s = .next s)

/-- The values that the manual gives for the state before power is applied: every function's registers 0 with its rings
disabled and its vectors masked, all sequence table entries FREE, lifecycle OPEN, debug level D0, no partner, no session, no
image, ALERT_N high, PWR_GOOD low, the default shares of R99. The invariants of EveryStepKeepsShape hold. -/
def Obligations.ResetValues : Prop :=
  (∀ f, f < 64 → (State.reset.fn f).event = 0 ∧ (State.reset.fn f).holdoff = 0 ∧ (State.reset.fn f).cpl.enable = false ∧
    (State.reset.fn f).sbr.enable = false ∧ (∀ q ∈ (State.reset.fn f).subs, q.enable = false ∧ q.head = 0 ∧ q.tail = 0) ∧
    (∀ m ∈ (State.reset.fn f).msix, m.masked = true ∧ m.pend = false)) ∧
  (∀ n, (State.reset.slot n).state = .free) ∧ State.reset.sec.life = .opened ∧ State.reset.sec.debug = .d0 ∧
  State.reset.reqs = [] ∧ State.reset.fab.sessions = [] ∧ State.reset.img.models = [] ∧ State.reset.index.live = [] ∧
  State.reset.pins.alertN = true ∧ State.reset.pins.pwrGood = false ∧ State.reset.pending = [] ∧
  State.reset.entry 0x601001 = 24000 ∧ State.reset.entry 0x601002 = 30000 ∧ State.reset.buffersOk ∧ State.reset.shapeOk

/-! ### Doorbells, rings, function registers -/

/-- R316, R317, R328: a submission doorbell of an enabled ring. The present value is ignored; a value below the entry count becomes
the doorbell; any other sets ERROR and bit 0 of FUNC_EVENT and is counted, and the doorbell stays. The completion doorbell sets
the head and frees the entries before it; the step batch doorbell at a multiple of 64 sets that ring's head, and with nothing in
the overflow area lets fetching go on (heads: log 14). -/
def Obligations.Doorbells : Prop :=
  (∀ (s : State) (t f r v : Nat) (q : SubRing), s.fnExists f = true → r < 4 → (s.fn f).subs[r]? = some q → q.enable = true →
    (v = q.tail → exec (.subTailDoorbell t f r v) s = .next (s.tick t)) ∧
    (v ≠ q.tail → v < 2 ^ q.size → exec (.subTailDoorbell t f r v) s = .next ((s.tick t).modFn f fun fn =>
      { fn with subs := modAt fn.subs r fun q => { q with tail := v } })) ∧
    (v ≠ q.tail → 2 ^ q.size ≤ v → exec (.subTailDoorbell t f r v) s = .next ((((s.tick t).modFn f fun fn =>
      { fn with subs := modAt fn.subs r fun q => { q with error := true, errStatus := 0x12 } }).funcEvent f 0).count 0x110004 1))) ∧
  ((∀ (s : State) (t f v : Nat), s.fnExists f = true → (s.fn f).cpl.enable = true → v < 2 ^ (s.fn f).cpl.size →
    exec (.cplHeadDoorbell t f v) s = .next ((s.tick t).modFn f fun fn => { fn with cpl := { fn.cpl with
      head := v, used := (fn.cpl.tail + 2 ^ fn.cpl.size - v) % 2 ^ fn.cpl.size } })) ∧
  (∀ (s : State) (t f v : Nat), s.fnExists f = true → f < s.host.fns.length → (s.fn f).sbr.enable = true →
    v < 2 ^ (s.fn f).sbr.size → v % 64 = 0 → (s.fn f).sbr.ovf = [] →
    ∃ s', exec (.sbrHeadDoorbell t f v) s = .next s' ∧
      s'.fn f = { s.fn f with sbr := { (s.fn f).sbr with head := v }, overrun := false } ∧ (∀ g, g ≠ f → s'.fn g = s.fn g) ∧
      s'.out = s.out ∧ s'.reqs = s.reqs ∧ s'.dict = s.dict ∧ s'.seq = s.seq))

/-- R315: writing 1 to ENABLE of a disabled ring. In range, aligned and inside one window, the ring is enabled with head, tail
and doorbell 0 and ERROR cleared, a completion ring with PHASE 1; out of range or unaligned, ERROR is set with FIELD_RESERVED;
outside every window, with ACCESS_DENIED; the ring then stays disabled. Writing 0 disables a submission ring at once. A completion
or step batch ring of a function with a request outstanding stays enabled and bit 1 of FUNC_EVENT is set; without one it is
disabled. -/
def Obligations.Rings : Prop :=
  ((∀ (s : State) (t f : Nat) (ring : RingSel), s.fnExists f = true → (ringCfg (s.fn f) ring).2.2.1 = false →
    s.enableCheck f ring = none → ring ≠ .sbr →
    exec (.ringEnable t f ring) s = .next ((s.tick t).modFn f fun fn => ringOn fn ring)) ∧
  (∀ (s : State) (t f : Nat), s.fnExists f = true → (ringCfg (s.fn f) .sbr).2.2.1 = false → s.enableCheck f .sbr = none →
    exec (.ringEnable t f .sbr) s = .next (((s.tick t).holdOvf 16).modFn f fun fn => ringOn fn .sbr)) ∧
  (∀ (s : State) (t f : Nat) (ring : RingSel) (st : Status), s.fnExists f = true → (ringCfg (s.fn f) ring).2.2.1 = false →
    s.enableCheck f ring = some st →
    exec (.ringEnable t f ring) s = .next (((s.tick t).modFn f fun fn => ringError fn ring st).funcEvent f 0)) ∧
  (∀ (s : State) (f r : Nat) (q : SubRing), (s.fn f).subs[r]? = some q →
    (q.size < 6 ∨ 16 < q.size ∨ q.base % 4096 ≠ 0 → s.enableCheck f (.sub r) = some .fieldReserved) ∧
    (6 ≤ q.size → q.size ≤ 16 → q.base % 4096 = 0 → inWindows (s.fn f).wins q.base (2 ^ q.size * 64) = false →
      s.enableCheck f (.sub r) = some .accessDenied) ∧
    (6 ≤ q.size → q.size ≤ 16 → q.base % 4096 = 0 → inWindows (s.fn f).wins q.base (2 ^ q.size * 64) = true →
      s.enableCheck f (.sub r) = none)) ∧
  (∀ fn : Fn, (ringOn fn .cpl).cpl.enable = true ∧ (ringOn fn .cpl).cpl.tail = 0 ∧ (ringOn fn .cpl).cpl.head = 0 ∧
    (ringOn fn .cpl).cpl.phase = true ∧ (ringOn fn .cpl).cpl.error = false ∧ (ringOn fn .cpl).cpl.base = fn.cpl.base)) ∧
  (∀ (s : State) (t f : Nat), s.fnExists f = true →
    (∀ r, exec (.ringDisable t f (.sub r)) s =
      .next ((s.tick t).modFn f fun fn => { fn with subs := modAt fn.subs r fun q => { q with enable := false } })) ∧
    (s.busyFn f = true → ∀ ring, ring = .cpl ∨ ring = .sbr → exec (.ringDisable t f ring) s = .next ((s.tick t).funcEvent f 1)) ∧
    (s.busyFn f = false → exec (.ringDisable t f .cpl) s =
      .next ((s.tick t).modFn f fun fn => { fn with cpl := { fn.cpl with enable := false } })) ∧
    (s.busyFn f = false → (s.fn f).sbr.enable = true → exec (.ringDisable t f .sbr) s =
      .next (((s.tick t).freeOvf 16).modFn f fun fn => { fn with sbr := { fn.sbr with enable := false, ovf := [] }, overrun := false }))) ∧
  ((∀ (s : State) (t f r : Nat) (q : SubRing), s.fnExists f = true → f < s.host.fns.length → (s.fn f).subs[r]? = some q →
    q.enable = false → 6 ≤ q.size → q.size ≤ 16 → q.base % 4096 = 0 → inWindows (s.fn f).wins q.base (2 ^ q.size * 64) = true →
    ∃ s', exec (.ringEnable t f (.sub r)) s = .next s' ∧
      (s'.fn f).subs[r]? = some { base := q.base, size := q.size, enable := true } ∧
      (∀ k, k ≠ r → (s'.fn f).subs[k]? = (s.fn f).subs[k]?) ∧ (∀ g, g ≠ f → s'.fn g = s.fn g) ∧ s'.reqs = s.reqs ∧ s'.out = s.out) ∧
  (∀ (s : State) (t f : Nat) (ring : RingSel), s.fnExists f = true → s.busyFn f = false ∨ (∃ r, ring = .sub r) →
    ∃ s', exec (.ringDisable t f ring) s = .next s' ∧ (ringCfg (s'.fn f) ring).2.2.1 = false ∧
      (∀ g, g ≠ f → s'.fn g = s.fn g) ∧ s'.reqs = s.reqs ∧ s'.out = s.out))

/-- R6, R7, R313, R314, R330, R311, R398, R439: FUNC_EVENT is cleared bit by bit where 1 is written; the hold-off keeps at most 1,000; a host
window's base and length take 32-bit halves, a 64-bit access as two of them; a write to a reserved offset, of another width, or
off its alignment changes nothing but time (log 16). A window register reads back what was written; FUNC_INFO reads the function's
number, the operating state and FETCHING; doorbells and reserved offsets read 0. A Function Level Reset of a virtual function puts all its registers back and
counts; one of the physical function, or a link reset, does so for every enabled function and clears VF Enable; a link reset by
PERST_N leaves the pin asserted, and its release raises it; disabling virtual functions resets those that cease to exist. Memory
of requests stays with them, and nothing more is written for the requests of a reset function. -/
def Obligations.FunctionRegisters : Prop :=
  ((∀ (s : State) (t f : Nat) (mask : BitVec 32), s.fnExists f = true →
    exec (.funcEventClear t f mask) s = .next ((s.tick t).modFn f fun fn => { fn with event := fn.event &&& ~~~mask })) ∧
  (∀ (s : State) (t f v : Nat), s.fnExists f = true → v < 2 ^ 32 → exec (.funcRegisterWrite t f 0x8 4 v) s =
    .next ((s.tick t).modFn f fun fn => { fn with holdoff := min 1000 v })) ∧
  (∀ (s : State) (t f i v : Nat), s.fnExists f = true → i < 16 → v < 2 ^ 32 → exec (.funcRegisterWrite t f (0x800 + 16 * i) 4 v) s =
    .next ((s.tick t).modFn f fun fn => { fn with wins := modAt fn.wins i fun x => { x with base := putHalf x.base false v } })) ∧
  (∀ (s : State) (t f off v : Nat), s.fnExists f = true → off % 8 = 0 → exec (.funcRegisterWrite t f off 8 v) s =
    .next (((s.tick t).write32 f off (v % 2 ^ 32)).write32 f (off + 4) (v / 2 ^ 32 % 2 ^ 32))) ∧
  (∀ (s : State) (t f off w v : Nat), s.fnExists f = true → ((w ≠ 4 ∧ w ≠ 8) ∨ (w = 4 ∧ off % 4 ≠ 0) ∨ (w = 8 ∧ off % 8 ≠ 0) ∨
      (w = 4 ∧ off % 4 = 0 ∧ 0x11000 ≤ off ∧ off ≠ 0x12000)) → exec (.funcRegisterWrite t f off w v) s = .next (s.tick t)) ∧
  (∀ (s : State) (t f i v : Nat), s.fnExists f = true → f < s.host.fns.length → i < (s.fn f).wins.length → i < 16 → v < 2 ^ 32 →
    ∃ s', exec (.funcRegisterWrite t f (0x800 + 16 * i) 4 v) s = .next s' ∧ s'.funcRead f (0x800 + 16 * i) 4 = some v ∧
      s'.funcRead f (0x804 + 16 * i) 4 = s.funcRead f (0x804 + 16 * i) 4) ∧
  (∀ (s : State) (f : Nat), s.fnExists f = true →
    s.funcRead f 0 4 = some (f + 256 * s.mod.op.code + 65536 * (fetching s.mod.op).toNat) ∧
    (∀ off, off % 4 = 0 → (0x1000 ≤ off ∧ off < 0x2000) ∨ (0x4000 ≤ off ∧ off < 0x10000) ∨ off = 0x12000 → s.funcRead f off 4 = some 0))) ∧
  ((∀ (s : State) (t f : Nat), s.host.fns.length = 64 → f < 64 → f ≠ 0 → s.fnExists f = true →
    ∃ s', exec (.functionLevelReset t f) s = .next s' ∧ s'.fn f = {} ∧ (∀ g, g ≠ f → s'.fn g = s.fn g) ∧
      s'.reqs = s.reqs.map (flrRequest f) ∧ s'.entry 0x110007 = s.entry 0x110007 + 1 ∧ s'.out = s.out ∧ s'.seq = s.seq ∧
      s'.host.vfEnable = s.host.vfEnable) ∧
  (∀ (s : State) (t : Nat), s.host.fns.length = 64 → ∃ s', exec (.functionLevelReset t 0) s = .next s' ∧
    s'.host.vfEnable = false ∧ (∀ g, g < 64 → s.fnExists g = true → s'.fn g = {})) ∧
  (∀ (s : State) (t : Nat) (perst : Bool), s.host.fns.length = 64 → ∃ s', exec (.pcieLinkReset t perst) s = .next s' ∧
    s'.host.vfEnable = false ∧ (∀ g, g < 64 → s.fnExists g = true → s'.fn g = {}) ∧
    s'.host.perstHigh = (s.host.perstHigh && !perst)) ∧
  (∀ (s : State) (t : Nat), exec (.perstNRelease t) s = .next { s.tick t with host := { s.host with perstHigh := true } }) ∧
  (∀ (s : State) (t num : Nat), s.host.fns.length = 64 → ∃ s', exec (.vfEnableChange t false num) s = .next s' ∧
    s'.host.vfEnable = false ∧ s'.host.numVfs = min 63 num ∧ (∀ g, 0 < g → g < 64 → s.fnExists g = true → s'.fn g = {}) ∧
    s'.fn 0 = s.fn 0) ∧
  (∀ (s : State) (t num : Nat), num ≤ 63 → s.host.vfEnable = false →
    exec (.vfEnableChange t true num) s = .next { s.tick t with host := { s.host with vfEnable := true, numVfs := num } }))

/-- R329: when the hold-off of a waiting interrupt has run out, an unmasked vector sends its message and a masked one pends;
unmasking a pending vector sends it at once and clears the pending bit; unmasking any other sends nothing. -/
def Obligations.Msix : Prop :=
  (∀ (s : State) (t f v : Nat), f < s.host.fns.length → v < (s.fn f).msix.length → ((s.fn f).msix.getD v {}).armed = true →
    (((s.fn f).msix.getD v {}).lastFired.getD 0) + (s.fn f).holdoff * 1000 ≤ max s.now t →
    ∃ s', exec (.msixHoldoffExpiry t f v) s = .next s' ∧ ((s'.fn f).msix.getD v {}).armed = false ∧
      (((s.fn f).msix.getD v {}).masked = false → s'.out = s.out ++ [.msix f v] ∧
        ((s'.fn f).msix.getD v {}).lastFired = some (max s.now t)) ∧
      (((s.fn f).msix.getD v {}).masked = true → s'.out = s.out ∧ ((s'.fn f).msix.getD v {}).pend = true) ∧ s'.reqs = s.reqs) ∧
  (∀ (s : State) (t f v : Nat), f < s.host.fns.length → v < 4 → v < (s.fn f).msix.length → s.fnExists f = true →
    ((s.fn f).msix.getD v {}).lastFired = none → ∃ s', exec (.msixUnmask t f v) s = .next s' ∧
      ((s'.fn f).msix.getD v {}).masked = false ∧ ((s'.fn f).msix.getD v {}).pend = false ∧
      s'.out = (if ((s.fn f).msix.getD v {}).pend = true then s.out ++ [.msix f v] else s.out))

/-- R350: the dictionary doorbell with 1 takes the bytes of the request window as a PDU and sets BUSY; while BUSY it is ignored
and bit 1 of FUNC_EVENT is set; any other value is ignored. -/
def Obligations.DictionaryDoorbell : Prop :=
  ∀ (s : State) (t f v : Nat), s.fnExists f = true →
    (v = 1 → (s.fn f).dictBusy = false → exec (.dictDoorbell t f v) s = .next ((s.tick t).modFn f fun fn => { fn with
      dictTaken := some (BitVec.ofNat 128 (ofLe ((s.fn f).dictReq.readAll 0 16)), (s.fn f).dictReq.readAll 16 4080)
      dictBusy := true, dictValid := false })) ∧
    (v = 1 → (s.fn f).dictBusy = true → exec (.dictDoorbell t f v) s = .next ((s.tick t).funcEvent f 1)) ∧
    (v ≠ 1 → exec (.dictDoorbell t f v) s = .next (s.tick t))

/-! ### Descriptor rows -/

/-- R326: a fetched NOP is answered at once: one completion entry of 64 bytes at the ring's tail, with STATUS 0x00, FINAL, the
REQ_TAG and the opcode, then at most the vector's message; no request becomes outstanding, nothing else of any function, of
generation, of security or of flash changes. -/
def Obligations.NopAnswered : Prop :=
  ∀ (s : State) (t : Nat) (x : Fetched) (q : Request) (s1 : State), s.TakesRow t 0x3F x false q s1 →
    ∃ s', exec (.nop t x) s = .next s' ∧ s'.reqs = s.reqs ∧ s'.sec = s.sec ∧ s'.flash = s.flash ∧ s'.seq = s.seq ∧
      s'.img = s.img ∧ (∀ g, g ≠ q.fn → s'.fn g = s.fn g) ∧
      ∃ rest, s'.out = s.out ++ .hostWrite q.fn ((s.fn q.fn).cpl.base + 64 * (s.fn q.fn).cpl.tail) 64
          (cplEncode (dTag x.desc) 0x3F q.index q.ring (s.fn q.fn).cpl.phase 0 { status := .done, final := true }) :: rest ∧
        (rest = [] ∨ rest = [.msix q.fn 0])

/-- R327: a CANCEL names no outstanding request: UNKNOWN_OBJECT. Its target cannot be cancelled, or has a CANCEL already of that
tag: STATE_CONFLICT. A target in a stage waits for its boundary: the CANCEL is kept with it and the target is marked; a target
whose admission is still open is refused at once and the CANCEL with it. -/
def Obligations.CancelRows : Prop :=
  ∀ (s : State) (t : Nat) (x : Fetched) (r : Request) (s1 : State), s.TakesRow t 0x07 x false r s1 →
    (s1.reqs.any (fun q => q.fn = r.fn && q.cancels.any fun c => c.tag = dTarget r.desc) = true →
      exec (.cancel t x) s = .next (s1.answer r .stateConflict false)) ∧
    (s1.reqs.any (fun q => q.fn = r.fn && q.cancels.any fun c => c.tag = dTarget r.desc) = false →
      (s1.req r.fn (dTarget r.desc) = none → exec (.cancel t x) s = .next (s1.answer r .unknownObject false)) ∧
      (∀ q, s1.req r.fn (dTarget r.desc) = some q →
        (cancellable q = false → exec (.cancel t x) s = .next (s1.answer r .stateConflict false)) ∧
        (cancellable q = true → q.round.isSome = true → exec (.cancel t x) s = .next (s1.refuseRound (addCancel r q))) ∧
        (cancellable q = true → q.round = none → q.op ≠ 0x21 → q.work.stage ≠ 14 → exec (.cancel t x) s =
          .next (s1.modReq q.fn q.tag fun y => { addCancel r y with cancelling := true }))))

/-- R323: whatever descriptor row fetches, a failed check of 1 to 6 ends it with one FINAL entry that carries the check's
status, and it is counted; with nothing to fetch, only time goes on (log 3). No request becomes outstanding. -/
def Obligations.FailedChecks : Prop :=
  ∀ (i : Instr) (t op : Nat) (x : Fetched) (d : Bool), rowOf i = some (t, x, op, d) → ∀ s : State,
    (nextFetch (s.tick t) = none → exec i s = .next (s.tick t)) ∧
    (∀ f r st, nextFetch (s.tick t) = some (f, r) → checks16 (fetchFrom (s.tick t) f r x.desc) f op x d = some st →
      exec i s = .next ((fetchFrom (s.tick t) f r x.desc).reject (requestOf (s.tick t) f r x.desc) st true) ∧
      ∃ s', exec i s = .next s' ∧ s'.reqs = s.reqs ∧ s'.entry 0x110003 = s.entry 0x110003 + 1 ∧
        ∃ rest, s'.out = s.out ++ .hostWrite f ((s.fn f).cpl.base + 64 * (s.fn f).cpl.tail) 64
            (cplEncode (dTag x.desc) (dOp x.desc) (((s.fn f).subs.getD r {}).head) r (s.fn f).cpl.phase 0 { status := st, final := true })
            :: rest ∧ (rest = [] ∨ rest = [.msix f 0]))

/-- R24, R29, R33, R36: EMBED, RETRIEVE, RERANK, PACK, COPY. A row whose checks hold and whose stages find their room is
accepted: one request more is outstanding, with its function and tag, a promise of KIND 1 and the next ADMIT_TIME; FIRST_DUE is
0 for a BE request. When something does not fit, it is refused and only its FINAL entry with REFUSED_CAPACITY is left. -/
def Obligations.OneResultRequests : Prop :=
  (∀ (s : State) (t : Nat) (x : Fetched) (host : List Byte) (p : Payload) (q : Request) (s1 : State), p = cutPayload x host → s.TakesRow t 0x03 x false q s1 →
    s1.checkEmbed q x p = none →
    ((s1.embedAdm q x p).admissible = true → ∃ s', exec (.embed t x host) s = .next s' ∧ s'.Holds s1 q) ∧
    ((s1.embedAdm q x p).admissible = false → exec (.embed t x host) s = .next (s1.reject q .refusedCapacity false))) ∧
  (∀ (s : State) (t : Nat) (x : Fetched) (host : List Byte) (p : Payload) (q : Request) (s1 : State), p = cutPayload x host → s.TakesRow t 0x02 x false q s1 →
    s1.checkRetrieve q x p = none →
    ((s1.retrieveAdm q x p).admissible = true → ∃ s', exec (.retrieve t x host) s = .next s' ∧ s'.Holds s1 q) ∧
    ((s1.retrieveAdm q x p).admissible = false → exec (.retrieve t x host) s = .next (s1.reject q .refusedCapacity false))) ∧
  (∀ (s : State) (t : Nat) (x : Fetched) (host : List Byte) (p : Payload) (q : Request) (s1 : State) (v : IndexVer), p = cutPayload x host → s.TakesRow t 0x04 x false q s1 →
    s1.checkRerank q x p = none → s1.index.live.head? = some v →
    ((s1.rerankAdm q x p v).admissible = true → s1.req q.fn q.tag = none →
      ∃ s', exec (.rerank t x host) s = .next s' ∧ s'.HoldsOne s1 q) ∧
    ((s1.rerankAdm q x p v).admissible = false → exec (.rerank t x host) s = .next (s1.reject q .refusedCapacity false))) ∧
  (∀ (s : State) (t : Nat) (x : Fetched) (host : List Byte) (p : Payload) (q : Request) (s1 : State) (v : IndexVer), p = cutPayload x host → s.TakesRow t 0x05 x false q s1 →
    s1.checkPack q x p = none → s1.index.live.head? = some v →
    ((s1.packAdm q x p v).admissible = true → ∃ s', exec (.pack t x host) s = .next s' ∧ s'.Holds s1 q) ∧
    ((s1.packAdm q x p v).admissible = false → exec (.pack t x host) s = .next (s1.reject q .refusedCapacity false))) ∧
  (∀ (s : State) (t : Nat) (x : Fetched) (w : BitVec 256) (data : List Byte) (q : Request) (s1 : State),
    s.TakesRow t 0x30 x false q s1 → s1.checkCopy q w = none → (q.lc = true → s1.entry (perFn 0x2100 q.fn) ≠ 0) →
    ((s1.copyAdm q w data).admissible = true → ∃ s', exec (.copy t x w data) s = .next s' ∧ s'.Holds s1 q) ∧
    ((s1.copyAdm q w data).admissible = false → exec (.copy t x w data) s = .next (s1.reject q .refusedCapacity false)))

/-- R42, R205, R207: GENERATE, and an ASK that generates here. The values of n are tried in order; with one that fits, one
request more is outstanding, with KIND 0, a handle whose slot is RESERVED and n as its STEPS; with none it is refused. -/
def Obligations.StreamRequests : Prop :=
  (∀ (s : State) (t : Nat) (x : Fetched) (host : List Byte) (p : Payload) (q : Request) (s1 : State) (m : ModelRes), p = cutPayload x host → s.TakesRow t 0x06 x false q s1 →
    s1.checkGenerate q x p = none → s1.modelId (gModel p.gen) 1 = some m →
    (∀ n ∈ s1.stepChoices q m, ∀ s2, s1.generateStream q p m n = some s2 → (∀ k ∈ s1.stepChoices q m, k < n →
        s1.generateStream q p m k = none) → exec (.generate t x host) s = .next s2 ∧ s2.Streams s1 q n) ∧
    ((∀ n ∈ s1.stepChoices q m, s1.generateStream q p m n = none) →
      exec (.generate t x host) s = .next (s1.reject q .refusedCapacity false))) ∧
  (∀ (s : State) (t : Nat) (x : Fetched) (host : List Byte) (p : Payload) (q : Request) (s1 : State) (v : IndexVer) (m : ModelRes),
    p = cutPayload x host → s.TakesRow t 0x01 x false q s1 → s1.checkAsk q x p = none → s1.boundVer p.retr = some v → kTargets p.rank = 0 →
    s1.modelId (gModel p.gen) 1 = some m →
    (∀ n ∈ s1.stepChoices q m, ∀ s2, s1.askStream q x p v m n = some s2 → (∀ k ∈ s1.stepChoices q m, k < n →
        s1.askStream q x p v m k = none) → exec (.ask t x host) s = .next s2 ∧ s2.Streams s1 q n) ∧
    ((∀ n ∈ s1.stepChoices q m, s1.askStream q x p v m n = none) →
      exec (.ask t x host) s = .next (s1.reject q .refusedCapacity false))) ∧
  (∀ (s : State) (t : Nat) (x : Fetched) (host : List Byte) (p : Payload) (q : Request) (s1 : State) (v : IndexVer),
    p = cutPayload x host → s.TakesRow t 0x01 x false q s1 → s1.checkAsk q x p = none → s1.boundVer p.retr = some v → kTargets p.rank ≠ 0 →
    ((s1.askAdm q x p v).admissible = true → ∃ s', exec (.ask t x host) s = .next s' ∧ s'.Holds s1 q) ∧
    ((s1.askAdm q x p v).admissible = false → exec (.ask t x host) s = .next (s1.reject q .refusedCapacity false)))

/-- R251, R257, R260: TABLE_GATHER and TABLE_UPDATE. An admissible one is accepted and starts: a gather asks for its rows, the
deltas of an update enter the window in progress; else it is refused. A started gather has T, the table version and
the map epoch of its step, and holds, awaits or misses every row it names; a started update counts its entries without a row and
waits for the homes of the others. An update of one entry whose row exists, of this
module's own, waits in the window of its admission and nothing is skipped. -/
def Obligations.TableRequests : Prop :=
  (∀ (s : State) (t : Nat) (x : Fetched) (g : GatherPayload) (q : Request) (s1 : State) (d : TableDesc),
    s.TakesRow t 0x10 x false q s1 → s1.checkGather q g = none → s1.gatherDesc g.blk = some d →
    (s1.gatherAdm q g d).admissible = true →
    exec (.tableGather t x g) s = .next ((((s1.gatherAdm q g d).s.admitted (s1.gatherAdm q g d).r 1)).startGather q.fn q.tag)) ∧
  (∀ (s : State) (t : Nat) (x : Fetched) (g : GatherPayload) (q : Request) (s1 : State) (d : TableDesc),
    s.TakesRow t 0x10 x false q s1 → s1.checkGather q g = none → s1.gatherDesc g.blk = some d →
    (s1.gatherAdm q g d).admissible = true → (s1.gatherAdm q g d).r.covered = 0 → s1.req q.fn q.tag = none →
    ∃ s' r w, exec (.tableGather t x g) s = .next s' ∧ s'.HoldsOne s1 q ∧ s'.req q.fn q.tag = some r ∧ r.gather = some (g, w) ∧
      w.table = d.tableId ∧ w.version = d.version ∧ w.time = stepOf s1.now * 50000 ∧ w.epoch = s1.pool.epoch.toNat ∧
      (∀ row ∈ g.rows, row.toNat < d.rowCount → (getKey w.have_ row.toNat).isSome = true ∨ row.toNat ∈ w.await ∨ row.toNat ∈ w.unserved)) ∧
  (∀ (s : State) (t : Nat) (x : Fetched) (g : GatherPayload) (q : Request) (s1 : State) (d : TableDesc),
    s.TakesRow t 0x10 x false q s1 → s1.checkGather q g = none → s1.gatherDesc g.blk = some d →
    (s1.gatherAdm q g d).admissible = false → exec (.tableGather t x g) s = .next (s1.reject q .refusedCapacity false)) ∧
  (∀ (s : State) (t : Nat) (x : Fetched) (u : UpdatePayload) (q : Request) (s1 : State),
    s.TakesRow t 0x11 x false q s1 → s1.checkUpdate q u = none → (s1.updateAdm q u).admissible = true →
    exec (.tableUpdate t x u) s = .next (((s1.updateAdm q u).s.admitted (s1.updateAdm q u).r 1).startUpdate q.fn q.tag)) ∧
  (∀ (s : State) (t : Nat) (x : Fetched) (u : UpdatePayload) (q : Request) (s1 : State) (d : TableDesc),
    s.TakesRow t 0x11 x false q s1 → s1.checkUpdate q u = none → s1.table (tuTable u.blk) = some d →
    (s1.updateAdm q u).admissible = true → (s1.updateAdm q u).r.covered = 0 → s1.req q.fn q.tag = none →
    (∃ e ∈ u.entries.take (tuEntries u.blk), e.1.toNat < d.rowCount) →
    ∃ s' r w, exec (.tableUpdate t x u) s = .next s' ∧ s'.HoldsOne s1 q ∧ s'.req q.fn q.tag = some r ∧ r.update = some (u, w) ∧
      w.window = stepOf s1.now ∧ w.homes ≠ [] ∧
      w.skipped = ((u.entries.take (tuEntries u.blk)).filter fun e => d.rowCount ≤ e.1.toNat).length ∧
      s'.entry 0x501007 = s1.entry 0x501007 + w.skipped) ∧
  (∀ (s : State) (t : Nat) (x : Fetched) (u : UpdatePayload) (q : Request) (s1 : State),
    s.TakesRow t 0x11 x false q s1 → s1.checkUpdate q u = none → (s1.updateAdm q u).admissible = false →
    exec (.tableUpdate t x u) s = .next (s1.reject q .refusedCapacity false)) ∧
  (∀ (s : State) (t : Nat) (x : Fetched) (u : UpdatePayload) (q : Request) (s1 : State) (d : TableDesc) (e : BitVec 64 × List F32),
    s.TakesRow t 0x11 x false q s1 → s1.checkUpdate q u = none → (s1.updateAdm q u).admissible = true →
    s1.table (tuTable u.blk) = some d → u.entries.take (tuEntries u.blk) = [e] → e.1.toNat < d.rowCount →
    s1.pool.outgoing = [] → (s1.updateAdm q u).r.covered = 0 → s1.req q.fn q.tag = none →
    ∃ s', exec (.tableUpdate t x u) s = .next s' ∧
      s'.pool.outgoing = [{ window := stepOf s1.now, table := tuTable u.blk, row := e.1.toNat, source := s1.fab.ident, seq := 0
                            key := deltaKey d.tableId e.1.toNat (stepOf s1.now), deltas := e.2 }])

/-- R135, R210, R235, R236, R237: an admitted load, swap or index publication is accepted with KIND 1: its image is in progress,
the hub SRAM granules that it needs are taken, a victim is closed to admissions, an index becomes the publication under way.
A check that fails gives its status and nothing is loaded. -/
def Obligations.LoadRequests : Prop :=
  (∀ (s : State) (t : Nat) (x : Fetched) (p : LoadPayload) (q : Request) (s1 : State) (y : SignedImage),
    s.TakesRow t 0x20 x false q s1 → s1.checkLoad 0x20 q p = (none, some y) →
    ∃ s', exec (.modelLoad t x p) s = .next s' ∧ s'.Loads s1 q y ∧ s'.img.models = s1.img.models ∧
      s'.pools.hubGranules = s1.pools.hubGranules - hubOf y.img) ∧
  (∀ (s : State) (t : Nat) (x : Fetched) (p : LoadPayload) (q : Request) (s1 : State) (y : SignedImage),
    s.TakesRow t 0x21 x (lDefer p.blk) q s1 → s1.checkLoad 0x21 q p = (none, some y) →
    ∃ s', exec (.modelSwap t x p) s = .next s' ∧ s'.Loads s1 q y ∧
      s'.img.models = s1.img.models.map fun m => if m.img.modelId = lVictim p.blk then { m with victim := true } else m) ∧
  (∀ (s : State) (t : Nat) (x : Fetched) (p : LoadPayload) (q : Request) (s1 : State) (y : SignedImage) (i : IndexImage),
    s.TakesRow t 0x22 x false q s1 → s1.checkLoad 0x22 q p = (none, some y) → y.img = .index i →
    ∃ s', exec (.indexPublish t x p) s = .next s' ∧ s'.Loads s1 q y ∧ s'.index.live = s1.index.live ∧
      s'.index.pub.any (fun u => u.img = i && u.fn = q.fn && u.tag = q.tag && !u.loaded) = true) ∧
  (∀ (s : State) (t : Nat) (x : Fetched) (p : LoadPayload) (q : Request) (s1 : State) (st : Status) (y : Option SignedImage),
    s.TakesRow t 0x20 x false q s1 → s1.checkLoad 0x20 q p = (some st, y) →
    exec (.modelLoad t x p) s = .next (s1.reject q st (st ≠ .refusedCapacity)))

/-- R261, R264, R265: TABLE_PUBLISH. An accepted part or map is staged for its SWITCH_TIME, a map at once as loaded; a MIGRATE is
the migration under way, with W_F the window after acceptance. Rows and maps in force stay as they are. -/
def Obligations.PublishRequests : Prop :=
  (∀ (s : State) (t : Nat) (x : Fetched) (p : PublishPayload) (q : Request) (s1 : State) (y : SignedImage) (m : TableImage),
    s.TakesRow t 0x12 x false q s1 → s1.publishImage q p 0 = (none, some y) → y.img = .table m →
    s1.checkPart m (pSwitch p.blk) = none →
    ∃ s', exec (.tablePublishTable t x p) s = .next s' ∧ s'.pool = { s1.pool with staged := s1.pool.staged ++
      [{ switchTime := pSwitch p.blk, table := some m, fn := q.fn, tag := q.tag }] } ∧ s'.reqs.length = s.reqs.length + 1) ∧
  (∀ (s : State) (t : Nat) (x : Fetched) (p : PublishPayload) (q : Request) (s1 : State) (y : SignedImage) (m : MapImage),
    s.TakesRow t 0x12 x false q s1 → s1.publishImage q p 1 = (none, some y) → y.img = .rangeMap m →
    s1.checkMap m (pSwitch p.blk) = none →
    ∃ s', exec (.tablePublishMap t x p) s = .next s' ∧ s'.pool = { s1.pool with staged := s1.pool.staged ++
      [{ switchTime := pSwitch p.blk, map := some m, loaded := true, fn := q.fn, tag := q.tag }] } ∧
      s'.reqs.length = s.reqs.length + 1) ∧
  (∀ (s : State) (t : Nat) (x : Fetched) (p : PublishPayload) (q : Request) (s1 : State),
    s.TakesRow t 0x12 x false q s1 → s1.checkMigrate q p = none →
    ∃ s', exec (.tablePublishMigrate t x p) s = .next s' ∧ s'.pool = { s1.pool with migration := some {
        table := pTable p.blk, lo := pLo p.blk, hi := pHi p.blk, newHome := pNewHome p.blk
        freeze := stepOf s1.now + 1, fn := q.fn, tag := q.tag } } ∧ s'.reqs.length = s.reqs.length + 1)

/-! ### Copies and rounds -/

/-- R97, R322: when the last write of a COPY is sent, its bytes stand at the destination: in the function's scratch from DST on,
every other byte of it and every other function's scratch as before, or written to host memory from DST on; then the request
ends. The bytes come from scratch or are those read from host memory. A partner's copy of a mirrored COPY moves no byte (R301). -/
def Obligations.CopyMovesItsBytes : Prop :=
  (∀ (s : State) (t f tag : Nat) (r : Request) (w : BitVec 256) (data : List Byte), s.req f tag = some r → r.copy = some (w, data) →
    r.mirror = true → ∃ s', exec (.copyDone t f tag) s = .next s' ∧ s'.req f tag = none ∧ s'.img.scratch = s.img.scratch) ∧
  ∀ (s : State) (t f tag : Nat) (r : Request) (w : BitVec 256) (data : List Byte), s.req f tag = some r → r.copy = some (w, data) →
    f < 64 → r.mirror = false → (s.scratch f).wf = true →
    ∃ s' bytes, exec (.copyDone t f tag) s = .next s' ∧ s'.req f tag = none ∧
      bytes = (if cSrcSpace w = 1 then (s.scratch f).readAll (cSrc w) (cLength w) else data) ∧
      (cDstSpace w = 1 → (s'.scratch f).readAll (cDst w) bytes.length = bytes ∧ (s'.scratch f).wf = true ∧
        (∀ a, a < cDst w ∨ cDst w + bytes.length ≤ a → (s'.scratch f).read a = (s.scratch f).read a) ∧
        (∀ g, g ≠ f → s'.scratch g = s.scratch g)) ∧
      (cDstSpace w ≠ 1 → s'.img.scratch = s.img.scratch ∧
        (r.silent = false → .hostWrite f (cDst w) bytes.length (ofLe bytes) ∈ s'.out)) ∧
      s'.sec = s.sec ∧ s'.pool = s.pool ∧ s'.fab = s.fab

/-- R29, R54, R107, R108: the round over the members of a split model. A refusal, or 2 base steps without the last answer, refuses the
request. An answer that is not the last is kept. With the last one the request is accepted with the sum of R107 as its n, in its
promise and in its slot, but as LC not while AP refuses LC admissions. A refused round leaves nothing of a host request: it, its charges and its bookings are gone, and no other
request changes. -/
def Obligations.SplitRounds : Prop :=
  (∀ (s : State) (t f tag : Nat) (r : Request) (rd : Round), s.req f tag = some r → r.round = some rd → rd.split = true →
    (rd.since + 100000 ≤ max s.now t → exec (.splitMemberTimeout t f tag) s = .next ((s.tick t).refuseRound r)) ∧
    (max s.now t < rd.since + 100000 → exec (.splitMemberTimeout t f tag) s = .next (s.tick t)) ∧
    (∀ (g w n : Nat) (m : ModelRes), s.model r.model = some m →
      exec (.splitMemberAnswer t f tag g w false n) s = .next ((s.tick t).refuseRound r) ∧
      (((rd.answers.filter fun a => !(a.1 = g && a.2.1 = w)).length + 2 < membersOf m) →
        exec (.splitMemberAnswer t f tag g w true n) s = .next ((s.tick t).modReq f tag fun r => { r with round := some { rd with
          answers := (rd.answers.filter fun a => !(a.1 = g && a.2.1 = w)) ++ [(g, w, n)] } })) ∧
      (∀ k, k = splitSteps m r.promise.steps ((rd.answers.filter fun a => !(a.1 = g && a.2.1 = w)) ++ [(g, w, n)]) →
        membersOf m ≤ (rd.answers.filter fun a => !(a.1 = g && a.2.1 = w)).length + 2 → r.covered = 0 →
        (255 < k → exec (.splitMemberAnswer t f tag g w true n) s = .next ((s.tick t).refuseRound r)) ∧
        (k ≤ 255 → r.lc = true → (s.tick t).lcClosed = true →
          ∃ s', exec (.splitMemberAnswer t f tag g w true n) s = .next s' ∧ s'.req f tag = none) ∧
        (k ≤ 255 → r.lc = false ∨ (s.tick t).lcClosed = false →
          ∃ s' q, exec (.splitMemberAnswer t f tag g w true n) s = .next s' ∧ s'.req f tag = some q ∧ q.round = none ∧
          q.promise.steps = k ∧ q.promise.periodNs = (if r.lc then 50000 * k else 0) ∧
          (s'.slot (r.promise.handle / 65536)).steps = k)))) ∧
  (∀ (s : State) (t f tag : Nat) (r : Request) (rd : Round), s.req f tag = some r → r.round = some rd → rd.split = true →
    rd.since + 100000 ≤ max s.now t → r.origin = 0 →
    ∃ s', exec (.splitMemberTimeout t f tag) s = .next s' ∧ s'.req f tag = none ∧
      (∀ c ∈ s'.adm.charges, ¬ (c.fn = f ∧ c.tag = tag)) ∧ (∀ b ∈ s'.sweep.bookings, ¬ (b.2.1 = f ∧ b.2.2 = tag)) ∧
      (∀ g u, (g, u) ≠ (f, tag) → s'.req g u = s.req g u) ∧
      s'.sec = s.sec ∧ s'.pool = s.pool ∧ s'.fab = s.fab)

/-! ### Stages -/

/-- R28, R172: at the end of any stage of a request that a CANCEL waits for, the request ends as cancelled. -/
def Obligations.CancelsEndAtStages : Prop :=
  ∀ (s : State) (t f tag : Nat) (r : Request), s.req f tag = some r → r.started = true → r.cancelling = true →
    (r.work.stage = 2 → exec (.tokenizeDone t f tag) s = .next ((s.tick t).finishCancelled r)) ∧
    (r.work.stage = 20 → exec (.promptCopyDone t f tag) s = .next ((s.tick t).finishCancelled r)) ∧
    (∀ x outs, r.work.stage = 3 → exec (.embedDone t f tag x outs) s = .next ((s.tick t).finishCancelled r)) ∧
    (r.work.stage = 8 → exec (.rerankDone t f tag) s = .next ((s.tick t).finishCancelled r)) ∧
    (∀ l, r.work.stage = 9 → exec (.crossEncodeDone t f tag l) s = .next ((s.tick t).finishCancelled r)) ∧
    (r.work.stage = 10 → exec (.selectDone t f tag) s = .next ((s.tick t).finishCancelled r)) ∧
    (r.work.stage = 11 → exec (.passageFetchDone t f tag) s = .next ((s.tick t).finishCancelled r)) ∧
    (r.work.stage = 12 → exec (.packDone t f tag) s = .next ((s.tick t).finishCancelled r)) ∧
    ((s.tick t).finishCancelled r).req f tag = none

/-- R180, R181, R185, R207, R209: the text stage. Its tokens are kept and the request goes on to the stage that follows for its
opcode; a text that the vocabulary refuses ends the request with FIELD_RESERVED and is counted. A copied prompt is the stream's
prompt, and its slot counts its tokens; a token field out of range ends the request. -/
def Obligations.TextStages : Prop :=
  ∀ (s : State) (t f tag : Nat) (r : Request), s.req f tag = some r → r.started = true → r.cancelling = false →
    (∀ us es n k, r.work.stage = 2 → s.textTokens r (s.mainVocab r) = (some us, n) →
      s.textTokens r ((s.encoderOf r).map (·.img.vocab)) = (some es, k) →
      ∃ s' q, exec (.tokenizeDone t f tag) s = .next s' ∧ s'.req f tag = some q ∧ q.work.tokens = us ∧ q.work.encTokens = es ∧
        q.work.stage = afterText r.op ∧ s'.entry 0x401001 = s.entry 0x401001 + max n k ∧ s'.seq = s.seq ∧ s'.sec = s.sec) ∧
    (∀ n e, r.work.stage = 2 → s.textTokens r (s.mainVocab r) = (none, n) → s.textTokens r ((s.encoderOf r).map (·.img.vocab)) = e →
      ∃ s', exec (.tokenizeDone t f tag) s = .next s' ∧ s'.req f tag = none ∧ s'.entry 0x401002 = s.entry 0x401002 + 1) ∧
    (r.work.stage = 20 → gSrc r.payload.gen = 1 → ∃ s' q, exec (.promptCopyDone t f tag) s = .next s' ∧ s'.req f tag = some q ∧
      q.work.stage = 13 ∧ q.work.prompt = r.work.tokens ∧
      (s'.slot (r.promise.handle / 65536)).prompt = r.work.tokens.length) ∧
    (∀ v, r.work.stage = 20 → gSrc r.payload.gen ≠ 1 → ((s.model r.model).map (·.img.vocab)).bind (s.vocabOf r) = some v →
      ((r.payload.prompt.take (gCount r.payload.gen)).all (tokenField v.img.tokenCount) = true →
        ∃ s' q, exec (.promptCopyDone t f tag) s = .next s' ∧ s'.req f tag = some q ∧ q.work.stage = 13 ∧
          q.work.prompt = (r.payload.prompt.take (gCount r.payload.gen)).map fun w => bits w.toNat 17 0) ∧
      ((r.payload.prompt.take (gCount r.payload.gen)).all (tokenField v.img.tokenCount) = false →
        exec (.promptCopyDone t f tag) s = .next ((s.tick t).finish r { status := .fieldReserved, final := true })))

/-- R115, R150: the end of embedding. EMBED writes its vector as FP32 words to its result buffer and ends; a query gets its
sketch, bit i of which is 1 when output i is greater than zero, and waits for its slate; RERANK goes on to its first ranking
stage with its query vector. -/
def Obligations.EmbeddingEnds : Prop :=
  ∀ (s : State) (t f tag : Nat) (r : Request) (x outs : List F32), s.req f tag = some r → r.started = true →
    r.cancelling = false → r.work.stage = 3 →
    (r.op = 0x03 → r.mirror = false → r.silent = false → f < 64 → x ≠ [] → ∃ s', exec (.embedDone t f tag x outs) s = .next s' ∧
      s'.req f tag = none ∧ .hostWrite f (dResAddr r.desc) (4 * x.length) (ofLe (wordBytes x)) ∈ s'.out) ∧
    (r.op = 0x01 ∨ r.op = 0x02 → ∃ s' q, exec (.embedDone t f tag x outs) s = .next s' ∧ s'.req f tag = some q ∧
      q.work.stage = 5 ∧ q.work.sketchReady = true ∧ q.work.embedding = x ∧ s'.sweep = s.sweep ∧
      (∀ i, (q.work.sketch.testBit i = true ↔ ∃ o, (s.rotated r x outs)[i]? = some o ∧ fNan o = false ∧ 0 < fKey o))) ∧
    (r.op = 0x04 → ∀ v, s.liveVer r.work.version = some v → ∃ s' q, exec (.embedDone t f tag x outs) s = .next s' ∧
      s'.req f tag = some q ∧ q.work.qvec = (queryVec v.img.qscale x).1 ∧
      q.work.stage = (if kRrN r.payload.rank ≠ 0 then 8 else if kCeN r.payload.rank ≠ 0 then 9 else 10))

/-- R147, R151, R154..R160: re-rank scores or loses every candidate and counts the losses; cross-encoding keeps as many candidates
as there are logits; after selection RERANK ends and the others fetch; after the fetch the request packs. -/
def Obligations.RankingStages : Prop :=
  ∀ (s : State) (t f tag : Nat) (r : Request) (v : IndexVer), s.req f tag = some r → r.started = true → r.cancelling = false →
    s.liveVer r.work.version = some v → r.work.remote = [] →
    (r.work.stage = 8 → ∃ s' q, exec (.rerankDone t f tag) s = .next s' ∧ s'.req f tag = some q ∧
      q.work.stage = (if kCeN r.payload.rank ≠ 0 then 9 else 10) ∧ q.work.rrDone = q.work.cands.length ∧
      q.work.rrDone + q.work.rrLost = r.work.cands.length ∧ (∀ c ∈ q.work.cands, c.lost = false) ∧
      s'.entry 0x311003 = s.entry 0x311003 + q.work.rrLost) ∧
    (∀ logits, r.work.stage = 9 → (∀ g ∈ r.work.feats, g.await = []) → logits.length = (r.work.cands.take (kCeN r.payload.rank)).length →
      ∃ s' q, exec (.crossEncodeDone t f tag logits) s = .next s' ∧ s'.req f tag = some q ∧ q.work.stage = 10 ∧
        q.work.ceDone = logits.length ∧ q.work.cands.length = logits.length ∧
        q.work.nonFinite = (logits.filter fun l => !fFinite l).length) ∧
    (r.work.stage = 10 → r.op = 0x04 → ∃ s', exec (.selectDone t f tag) s = .next s' ∧ s'.req f tag = none) ∧
    (r.work.stage = 10 → r.op ≠ 0x04 → ∃ s' q, exec (.selectDone t f tag) s = .next s' ∧ s'.req f tag = some q ∧
      q.work.stage = 11 ∧ q.work.cands.length = (selectCands r.payload.rank r.work.cands).1.length ∧
      q.work.selMass = (selectCands r.payload.rank r.work.cands).2.1) ∧
    (r.work.stage = 11 → ∃ s' q, exec (.passageFetchDone t f tag) s = .next s' ∧ s'.req f tag = some q ∧ q.work.stage = 12 ∧
      q.work.cands.length = r.work.cands.length ∧
      s'.entry 0x311004 = s.entry 0x311004 + q.work.fetchLost ∧ s'.entry 0x311005 = s.entry 0x311005 + q.work.forged)

/-- R163, R164, R165, R170: the end of packing. PACK ends with its result; an ASK with no prompt token ends; one that generates
here gets its packed prompt; one that hands off sends its prompt to the first target with a session and waits for its answer. A
target without a session counts as unanswered at once. -/
def Obligations.PackingEnds : Prop :=
  ∀ (s : State) (t f tag : Nat) (r : Request) (m : TemplateRes) (k : Work), s.req f tag = some r → r.started = true →
    r.cancelling = false → r.work.stage = 12 → s.templateOf r = some m → k = packWork m.img r →
    (r.op = 0x05 → ∃ s', exec (.packDone t f tag) s = .next s' ∧ s'.req f tag = none) ∧
    (r.op ≠ 0x05 → k.prompt = [] → ∃ s', exec (.packDone t f tag) s = .next s' ∧ s'.req f tag = none) ∧
    (r.op ≠ 0x05 → k.prompt ≠ [] → kTargets r.payload.rank = 0 → ∃ s' q, exec (.packDone t f tag) s = .next s' ∧
      s'.req f tag = some q ∧ q.work.stage = 13 ∧ q.work.prompt = k.prompt ∧
      (s'.slot (r.promise.handle / 65536)).prompt = k.prompt.length) ∧
    (∀ id rest, r.op ≠ 0x05 → k.prompt ≠ [] → kTargets r.payload.rank ≠ 0 → handTargets r = id :: rest → r.mirror = false →
      s.partner id = true → ∃ s' q, exec (.packDone t f tag) s = .next s' ∧ s'.req f tag = some q ∧ q.work.stage = 14 ∧
        q.work.awaiting = some id ∧ q.work.attempt = 0 ∧ q.work.since = max s.now t ∧
        ∃ w, s'.out = s.out ++ [.fabric id 0x20 [tag, s.fab.ident, m.img.vocab, k.prompt.length, s.fab.ident] w])

/-- R160, R164: waiting for others. Past the remote wait every candidate of a shard that did not answer is lost and the wait
ends; before it nothing changes but time. Past the hand-off wait the attempt has failed: with no target left the ASK ends with
its result, with one that has a session the prompt goes there. -/
def Obligations.WaitsExpire : Prop :=
  ∀ (s : State) (t f tag : Nat) (r : Request), s.req f tag = some r →
    (r.work.remote ≠ [] → r.work.since + s.entry 0x310001 ≤ max s.now t → ∃ s' q, exec (.remoteWaitExpiry t f tag) s = .next s' ∧
      s'.req f tag = some q ∧ q.work.remote = [] ∧ q.work.stage = r.work.stage ∧ q.work.cands.length = r.work.cands.length ∧
      (r.work.stage ≠ 11 → ∀ c ∈ q.work.cands, r.work.remote.contains (shardOf c.id) = true → c.lost = true) ∧
      s'.entry 0x311006 = s.entry 0x311006 + r.work.remote.length ∧ s'.out = s.out) ∧
    (max s.now t < r.work.since + s.entry 0x310001 → exec (.remoteWaitExpiry t f tag) s = .next (s.tick t)) ∧
    (∀ id, r.work.stage = 14 → r.work.awaiting = some id → r.mirror = false → r.work.since + s.entry 0x310004 ≤ max s.now t →
      ((handTargets r).drop (r.work.attempt + 1) = [] → ∃ s', exec (.handoffWaitExpiry t f tag) s = .next s' ∧
        s'.req f tag = none ∧ s'.entry 0x311007 = s.entry 0x311007 + 1) ∧
      (∀ i rest, (handTargets r).drop (r.work.attempt + 1) = i :: rest → s.partner i = true → ∃ s' q,
        exec (.handoffWaitExpiry t f tag) s = .next s' ∧ s'.req f tag = some q ∧ q.work.stage = 14 ∧ q.work.awaiting = some i ∧
          q.work.attempt = r.work.attempt + 1))

/-! ### The output path -/

/-- R188, R191, R192: for stop strings of 1 to 32 bytes and a stream's bytes from its first on, a stop fires exactly when some string
ends, at the first byte at which one does, the longest that ends there. Until then the matcher holds the longest suffix that is a
proper prefix of a string, at most 31 bytes, and nothing is lost. From then on what comes is discarded and counted, and all before
the string is released; with EMIT_STOP the string too. -/
def Obligations.StopStrings : Prop :=
  ∀ (stops : List (List Byte)) (mode : Nat) (emit : Bool) (bs : List Byte) (o : OutPath),
    (∀ x ∈ stops, 0 < x.length ∧ x.length ≤ 32) →
    o = bs.foldl (OutPath.byte stops mode emit) { held := [], utf := [] } →
    (o.fired = true ↔ ∃ k, k ≤ bs.length ∧ ∃ x ∈ stops, endsWith (bs.take k) x = true) ∧
    (o.fired = false → o.discarded = 0 ∧ o.held.length ≤ 31 ∧ endsWith bs o.held = true ∧
      (mode = 0 → o.released ++ o.utf ++ o.held = bs) ∧
      ∀ x ∈ stops, ∀ n, n < x.length → n ≤ bs.length → endsWith bs (x.take n) = true → n ≤ o.held.length) ∧
    (∀ k x, k ≤ bs.length → x ∈ stops → endsWith (bs.take k) x = true →
      (∀ j, j < k → ∀ y ∈ stops, endsWith (bs.take j) y = false) →
      (∀ y ∈ stops, endsWith (bs.take k) y = true → y.length ≤ x.length) →
      o.discarded = bs.length - k ∧ o.held = [] ∧ o.utf = [] ∧
      (mode = 0 → o.released = if emit then bs.take k else bs.take (k - x.length)))

/-- R193: of the ways in which one token can end a stream the first that applies gives the status: a stop string, then an ending
token, then the length limit. A control token has no bytes, so that the matcher does not see it. -/
def Obligations.EndStatusOrder : Prop :=
  (∀ (x : WalkIn) (fuel v fb : Nat) (toks : List TokenOut) (fin : Option Status) (o : TokenOut),
    walkTree x fuel v [] 0 = (toks, fin, fb) → fin ≠ some .internalFault → toks.getLast? = some o →
    (x.ends.contains o.token = true → fin = some .stoppedToken) ∧
    (x.ends.contains o.token = false → x.maxNew ≤ x.generated + toks.length → fin = some .stoppedLength)) ∧
  (∀ (s : State) (w : WalkOut) (st : Stream) (m : ModelRes) (voc : VocabRes) (y : OutPath × Nat),
    s.streamAt w.st.slot = some st → s.model (s.slot w.st.slot).model = some m → s.vocabOf w.req m.img.vocab = some voc →
    y = runOut voc.img (stopsOf w.req.payload.opts w.req.payload.stops) (oOutMode w.req.payload.opts) (oEmitStop w.req.payload.opts)
      { held := w.st.held, utf := w.st.utf } 0 w.toks →
    ∃ st' o, (s.deliver w).streamAt w.st.slot = some st' ∧ st'.out = some o ∧ o.tokens = w.toks.take y.2 ∧
      o.final = if y.1.fired then some .stoppedString else w.final) ∧
  (∀ (v : VocabImage) (stops : List (List Byte)) (mode id : Nat) (emit : Bool) (o : OutPath), isControl v id = true →
    o.token v stops mode emit id = o)

/-! ### Sweeps -/

/-- R28, R120, R122: when the slate of the next open sweep closes, cancelled queries that wait for it end; it takes at most 256
queries that wait with their sketch, each with the sketch it embedded to; an empty one that nothing runs before consumes its
sweep number and is counted as skipped, any other waits for its start. Nothing else is queued or published by it. -/
def Obligations.SlateCloses : Prop :=
  ∀ (s : State) (t n : Nat) (v : IndexVer), n = s.openSweep → s.imgOf n = some v → v.img.members ≤ 1 →
    sweeping s.mod.op = true → s.scheduled = true → s.sweepAt n ≤ max s.now t + slateLead →
    ∃ s' slate, exec (.slateClose t) s = .next s' ∧ slate.length ≤ 256 ∧
      (∀ p ∈ slate, ∃ q, s.req p.fn p.tag = some q ∧ q.joins = true ∧ q.pinIs v.img.version = true ∧ p = posOf v.img.member q) ∧
      (∀ q ∈ s.reqs, q.work.stage = 5 → q.cancelling = true → s'.req q.fn q.tag = none) ∧
      (slate = [] → s.sweep.closed = [] → s'.sweep.closed = [] ∧ s'.sweep.nextNo = n + 1 ∧
        s'.entry 0x302002 = s.entry 0x302002 + 1) ∧
      (slate ≠ [] ∨ s.sweep.closed ≠ [] → s'.sweep.closed = s.sweep.closed ++ [(n, slate)] ∧ s'.sweep.nextNo = s.sweep.nextNo ∧
        s'.entry 0x302002 = s.entry 0x302002) ∧
      s'.sweep.running = s.sweep.running ∧ s'.sweep.finished = s.sweep.finished ∧ s'.sec = s.sec ∧ s'.pool = s.pool

/-- R49, R51, R102, R119, R123, R152: a sweep starts at its time and not while another runs; it counts, uses the sweep share then in
force, and its queries enter stage 6; one that starts late may leave BE queries of its slate's tail out, no LC one. It does not end
while its reads of a stripe are stalled. A checkpoint reads for an ASK at most PREFETCH records, each among the provisional first RR_N.
At its end its lists are those of every lane swept, its time is kept, an overrun is counted, and its queries enter stage 7. -/
def Obligations.SweepRuns : Prop :=
  ∀ (s : State) (t : Nat),
    (∀ n slate rest v, s.sweep.closed = (n, slate) :: rest → s.imgOf n = some v → v.img.members ≤ 1 → sweeping s.mod.op = true →
      (s.sweep.running.isSome = true ∨ max s.now t < s.sweepAt n → exec (.sweepStart t) s = .next (s.tick t)) ∧
      (s.sweep.running = none → s.sweepAt n ≤ max s.now t → slate ≠ [] →
        ∃ s' w, exec (.sweepStart t) s = .next s' ∧ s'.sweep.running = some w ∧ w.no = n ∧ w.start = max s.now t ∧
          w.version = v.img.version ∧ w.slate <+: slate ∧ (∀ p ∈ slate, p.lc = true → p ∈ w.slate) ∧
          (max s.now t = s.sweepAt n → w.slate = slate) ∧ n < s'.sweep.nextNo ∧ s'.entry 0x302001 = s.entry 0x302001 + 1 ∧
          s'.adm.bSweep = s.entry 0x601001 ∧
          ∀ q ∈ s.reqs, q.work.stage = 5 → q.cancelling = false → (slate.map fun p => (p.fn, p.tag)).Nodup →
            w.slate.any (fun p => p.fn = q.fn && p.tag = q.tag) = true →
            (∀ r ∈ s.reqs, r.fn = q.fn → r.tag = q.tag → r = q) →
            s'.req q.fn q.tag = some { q with work := { q.work with stage := 6 } })) ∧
    (∀ w v quarter, s.sweep.running = some w → s.liveVer w.version = some v →
      (quarter ≤ s.sweep.quarters ∨ 3 < quarter → exec (.prefetchCheckpoint t quarter) s = .next (s.tick t)) ∧
      (s.sweep.quarters < quarter → quarter ≤ 3 → ∃ s', exec (.prefetchCheckpoint t quarter) s = .next s' ∧
        s'.sweep = { s.sweep with quarters := quarter } ∧ s'.out = s.out ∧
        ∀ f tag q, s.req f tag = some q → ∃ q', s'.req f tag = some q' ∧ q'.work.cands = q.work.cands ∧
          q'.work.specIssued.length ≤ max q.work.specIssued.length (kPrefetch q.payload.rank) ∧
          (q.op ≠ 0x01 → q' = q) ∧
          ∀ o ∈ q'.work.specIssued, o ∈ q.work.specIssued ∨ ∃ p ∈ w.slate, p.fn = f ∧ p.tag = tag ∧
            ∃ e ∈ (provisional v.img s.sweptLanes quarter (rK q.payload.retr) p).take (kRrN q.payload.rank), o = e.id % 2 ^ 48)) ∧
    (∀ diffs, s.faults.stalled.contains 64 = true → exec (.sweepEnd t diffs) s = .next (s.tick t)) ∧
    (∀ w v diffs, s.sweep.running = some w → s.liveVer w.version = some v → s.faults.stalled.contains 64 = false →
      ∃ s', exec (.sweepEnd t diffs) s = .next s' ∧
      s'.sweep.running = none ∧ s'.sweep.finished = s.sweep.finished ++ [{ w with
        lists := slateLists v.img ((List.range 32).filter fun l => !s.sweep.unswept.contains l) w.slate
        complete := w.complete && s.sweep.unswept.isEmpty }] ∧
      s'.entry 0x300005 = max s.now t - w.start ∧
      s'.entry 0x302003 = s.entry 0x302003 + (if s.periodAt w.no < max s.now t - w.start then 1 else 0) ∧
      s'.entry 0x302008 = s.entry 0x302008 + diffs.length ∧
      ∀ q ∈ s.reqs, q.work.stage = 6 → w.slate.any (fun p => p.fn = q.fn && p.tag = q.tag) = true →
        (∀ r ∈ s.reqs, r.fn = q.fn → r.tag = q.tag → r = q) →
        s'.req q.fn q.tag = if q.cancelling then none else some { q with work := { q.work with stage := 7 } })

/-- R127, R131: the merge of a query returns at most K entries, in strictly rising order of (DIST, PASSAGE_ID), all of them
entries of the lists; of each passage the entry with the lowest (DIST, LANE_TAG) is kept; a passage is left out only when K
entries come before all of its entries. D_K is the distance of the last one, all ones when there is none. -/
def Obligations.MergeTakesTheNearest : Prop :=
  ∀ m : MergeIn, ∀ x, x = mergeQuery m → ∀ all, all = laneEntries m.own m.member m.lanes ++ m.partners.flatMap (·.entries) →
    x.entries.length ≤ m.k ∧ x.valid = x.entries.length ∧ (∀ e ∈ x.entries, e ∈ all) ∧
    x.entries.Pairwise (fun a b => a.dist < b.dist ∨ (a.dist = b.dist ∧ a.id < b.id)) ∧
    (∀ e ∈ all, (∃ a ∈ x.entries, a.id = e.id ∧ (a.dist < e.dist ∨ (a.dist = e.dist ∧ a.lane ≤ e.lane))) ∨
      (x.entries.length = m.k ∧ (∀ a ∈ x.entries, a.id ≠ e.id ∧ (a.dist < e.dist ∨ (a.dist = e.dist ∧ a.id < e.id))))) ∧
    x.dK = (x.entries.getLast?.map (·.dist)).getD 0xFFFF

/-- R127: a result holds exactly K entries in ascending order of (DIST, PASSAGE_ID). With fewer than K distinct passages all of them
are there, the valid entries first, and each remaining position holds 1 in every bit but the reserved 16. D_K is the distance of
the last valid entry, or 0xFFFF. -/
def Obligations.ResultEntries : Prop :=
  ∀ (m : MergeIn) (tag : Nat) (x : RetrResult), x = mergeQuery m →
    ∀ all, all = laneEntries m.own m.member m.lanes ++ m.partners.flatMap (·.entries) →
    (x.bytes tag).length = 64 + 16 * m.k ∧ x.entries.length ≤ m.k ∧
    x.entries.Pairwise (fun a b => a.dist < b.dist ∨ (a.dist = b.dist ∧ a.id < b.id)) ∧
    (∀ i e, x.entries[i]? = some e → ((x.bytes tag).drop (64 + 16 * i)).take 16 = leBytes 16 e.encode) ∧
    (x.entries.length < m.k → ∀ e ∈ all, ∃ a ∈ x.entries, a.id = e.id) ∧
    (∀ i, x.entries.length ≤ i → i < m.k → ((x.bytes tag).drop (64 + 16 * i)).take 16 = leBytes 16 (2 ^ 128 - 2 ^ 16)) ∧
    (∀ e, x.entries.getLast? = some e → x.dK = e.dist) ∧ (x.entries = [] → x.dK = 0xFFFF)

/-- R132, R133, R150, R160: the end of a merge. RETRIEVE writes its result of 64 + 16 K bytes and ends; an ASK keeps it, with its
first RR_N entries as candidates, and goes on to ranking. A group query whose deadline has passed ends with the lists it has; a
deadline of a sweep that is not waiting changes only time. -/
def Obligations.MergesEnd : Prop :=
  ∀ (s : State) (t f tag pos : Nat) (w : SweepRun) (v : IndexVer) (p : SlatePos) (r : Request) (x : RetrResult),
    s.sweepOf f tag = some (w, pos) → s.liveVer w.version = some v → w.slate[pos]? = some p → s.req f tag = some r →
    f < 64 → r.work.stage = 7 → r.cancelling = false → x = mergeQuery (mergeIn v.img r w pos (isGroup v.img r)) →
    (isGroup v.img r = false →
      (r.op ≠ 0x01 → r.mirror = false → r.silent = false → ∃ s', exec (.mergeDone t f tag) s = .next s' ∧ s'.req f tag = none ∧
        .hostWrite f (dResAddr r.desc) (64 + 16 * max (rK r.payload.retr) x.entries.length) (ofLe (x.bytes r.tag)) ∈ s'.out ∧
        s'.entry 0x302005 = s.entry 0x302005 + x.saturated.toNat ∧ s'.entry 0x302006 = s.entry 0x302006 + x.mismatch) ∧
      (r.op = 0x01 → kRrN r.payload.rank = 0 → ∃ s' q, exec (.mergeDone t f tag) s = .next s' ∧ s'.req f tag = some q ∧
        q.work.result = some x ∧ q.work.cands.map (·.id) = x.entries.map (·.id) ∧
        q.work.stage = (if kCeN r.payload.rank ≠ 0 then 9 else 10) ∧ (kCeN r.payload.rank = 0 → s'.out = s.out))) ∧
    (isGroup v.img r = true → (s.tick t).partnersDone v.img w pos = false →
      ∃ s' q, exec (.mergeDone t f tag) s = .next s' ∧ s'.req f tag = some q ∧ q.work.stage = 7 ∧ q.work.result.isSome = true ∧
        s'.sweep = s.sweep ∧ s'.out = s.out) ∧
    (∀ n, s.sweep.finished.find? (fun y => y.no = n) = some w → w.slate = [p] → p.fn = f → p.tag = tag → r.op ≠ 0x01 →
      r.work.result.isSome = true → s.partnerDeadline v.img w.no ≤ max s.now t →
      ∃ s', exec (.partnerListDeadline t n) s = .next s' ∧ s'.req f tag = none) ∧
    (∀ n, s.sweep.finished.find? (fun y => y.no = n) = none → exec (.partnerListDeadline t n) s = .next (s.tick t))

/-- R119, R136, R138: the end of an index load. The first version is current at once and the schedule begins at the next whole
microsecond; a later one switches at the first sweep that holds no booking, before which the old version streams and from which
on the new one does; a failed load leaves the version in force, its request ended. A group member reports its end. -/
def Obligations.IndexLoads : Prop :=
  ∀ (s : State) (t : Nat) (p : Publication) (y : IndexVer), s.index.pub = some p → p.loaded = false → p.stored = true →
    y = ⟨p.vocab, p.img, p.digest, p.imageId, p.bytes⟩ →
    (p.img.members ≤ 1 → s.index.live = [] → ∃ s', exec (.indexLoadDone t true) s = .next s' ∧
      s'.index = { live := [y], pub := none } ∧ s'.sweep.origin = (max s.now t / 1000 + 1) * 1000 ∧
      s'.sweep.segs = [(0, (max s.now t / 1000 + 1) * 1000, s.entry 0x300001 * 1000)] ∧ s'.req p.fn p.tag = none) ∧
    (∀ c old, p.img.members ≤ 1 → s.index.live = c :: old → ∃ s', exec (.indexLoadDone t true) s = .next s' ∧
      (∀ n, n < s.unbooked → s'.imgOf n = some c) ∧ (∀ n, s.unbooked ≤ n → s'.imgOf n = some y) ∧
      (∀ b ∈ s.sweep.bookings, b.1 < s.unbooked) ∧ s'.sweep.segs = s.sweep.segs ∧ s'.req p.fn p.tag = none) ∧
    (p.img.members ≤ 1 → ∃ s', exec (.indexLoadDone t false) s = .next s' ∧ s'.index.pub = none ∧
      s'.index.live.head? = s.index.live.head? ∧ s'.req p.fn p.tag = none) ∧
    (1 < p.img.members → s.isOwner p.img = false → exec (.indexLoadDone t true) s =
      .next (({ s.tick t with index := { s.index with pub := some { p with loaded := true } } } : State).emit
        (.fabric (memberFab p.img (s.owner p.img)) 0x08 [0, 1, p.img.version]
          (publishWire 0 p.img.version (s.tick t).unbooked 0))))

/-! ### Base steps -/

/-- R213, R217, R99, R205, R326: a boundary inside the step in progress, or in a state that generates nothing, changes only time;
else the step that its time lies in begins, unverified, late work trims it, and the generation share and the table ledger's
sweep share are those accepted before. The record writing of an ended step lets it go, keeps its number as written, and ends
the request of every stream whose FINAL entry it holds; with none to write, or a covered one not acknowledged, it waits. -/
def Obligations.StepsAndRecords : Prop :=
  ∀ (s : State) (t late : Nat),
    (sweeping s.mod.op = false ∨ (s.step.begun = true ∧ stepOf (max s.now t) ≤ s.step.no) →
      exec (.baseStepBoundary t late) s = .next (s.tick t)) ∧
    (sweeping s.mod.op = true → (s.step.begun = false ∨ s.step.no < stepOf (max s.now t)) →
      ∃ s', exec (.baseStepBoundary t late) s = .next s' ∧ s'.step.no = stepOf (max s.now t) ∧ s'.step.begun = true ∧
        s'.step.verified = false ∧ s'.step.lateNs = late ∧ (s'.step.trimmed = true → 0 < late) ∧
        s'.step.catchup = decide (0 < late) ∧ s'.adm.bGen = s.entry 0x601002 ∧
        s'.adm.bSweepTbl = s.adm.bSweep ∧ s'.now = max s.now t) ∧
    (s.step.closing = none ∨ (∃ c, s.step.closing = some c ∧ s.ackMissing c = true) →
      exec (.stepBatchRecordWrite t) s = .next (s.tick t)) ∧
    (∀ c, s.step.closing = some c → s.ackMissing c = false → (s.seq.streams.map (·.slot)).Nodup →
      ∃ s', exec (.stepBatchRecordWrite t) s = .next s' ∧
      s'.step.closing = none ∧ s'.step.closed = [] ∧ s'.pair.written = c.no ∧ s'.step.no = s.step.no ∧
      ∀ e ∈ s.step.closed, e.notice = none → eFinal e.part.entry = true → ∀ st, s.streamAt e.slot = some st →
        s'.req st.fn st.tag = none)

/-- R84, R85, R219, R220, R213, R236: a slice that ends makes what its operations wrote visible, its cells count, and what its writes
outside the cells replaced is kept for a late mismatch; one whose copies are not in, or without a block, has not ended. A draft that finishes after verification is kept for the next step. Verification is once per step: it
gives each stream at most its out tokens, an LC stream with a candidate at least one, and changes no committed token, table
entry or request. The end of a load's copying leaves the resident models until the boundary. -/
def Obligations.StepWork : Prop :=
  ∀ (s : State) (t : Nat),
    (∀ id ops y x r, y = (s.tick t).runMovers → y.runningSlice id = some x → r = y.sliceRun x ops →
      ∃ s', exec (.sliceEnd t id ops) s = .next s' ∧ s'.cells.fresh.head? = some ⟨id, x.block, y.now, r.undo⟩ ∧
        s'.cells.nan = s.cells.nan + r.counts.nan ∧ s'.cells.inf = s.cells.inf + r.counts.inf ∧
        s'.cells.clamped = s.cells.clamped + r.counts.clamped ∧ s'.cells.lowcut = s.cells.lowcut + r.counts.lowcut ∧
        s'.cells.saturated = s.cells.saturated + r.counts.saturated ∧
        (∀ z ∈ s'.step.slices, z.id = id → z.ended = true) ∧ s'.step.slices.length = s.step.slices.length ∧
        s'.seq = s.seq ∧ s'.reqs = s.reqs ∧
        ((∀ q ∈ y.tiers.queues, q.2 = []) → (∀ z ∈ y.step.slices, z.block ≠ 768) →
          s'.tiers = { y.tiers with mem := r.mem } ∧ s'.cells.cores = r.cores ∧ (r.faults = [] → s'.out = y.out))) ∧
    (∀ id ops, (s.tick t).runMovers.runningSlice id = none → exec (.sliceEnd t id ops) s = .next (s.tick t).runMovers) ∧
    (∀ slot props st m, s.streamAt slot = some st → s.model (s.slot slot).model = some m → s.step.verified = true →
      st.ending = none → (s.slot slot).state = .decode → m.img.draftId ≠ 0 → m.img.resident = true →
      ∃ s', exec (.draftFinish t slot props) s = .next s' ∧ s'.streamAt slot = some { st with draft := some props } ∧
        (∀ k, k ≠ slot → s'.streamAt k = s.streamAt k) ∧ s'.seq.entries = s.seq.entries ∧ s'.reqs = s.reqs ∧ s'.out = s.out) ∧
    (∀ rows, s.step.begun = false ∨ s.step.verified = true → exec (.verificationEnd t rows) s = .next (s.tick t)) ∧
    (∀ rows, s.step.begun = true → s.step.verified = false → ∃ s', exec (.verificationEnd t rows) s = .next s' ∧
      s'.step.verified = true ∧ s'.seq.entries = s.seq.entries ∧ s'.reqs = s.reqs ∧ s'.out = s.out ∧
      s'.seq.streams.map (fun x => { x with held := [], utf := [], out := none }) =
        s.seq.streams.map (fun x => { x with held := [], utf := [], out := none }) ∧
      (∀ x ∈ s.seq.streams, (∀ row ∈ rows, row.slot ≠ x.slot) → x ∈ s'.seq.streams) ∧
      (∀ row w, rows = [row] → s.walkRow row = some w → (s.slot row.slot).isBe = false → w.toks ≠ [] →
        ∃ x o rest, s'.streamAt row.slot = some x ∧ x.out = some o ∧ o.firstJ = (s.slot row.slot).generated ∧ o.tokens ≠ [] ∧
          w.toks = o.tokens ++ rest)) ∧
    (∀ f tag slot r, s.req f tag = some r → r.op = 0x20 → ∃ s', exec (.modelLoadDone t f tag slot) s = .next s' ∧
      s'.req f tag = some { r with load := r.load.map fun l => { l with staged := true, written := true, slot := slot } } ∧
      s'.img = s.img ∧ s'.out = s.out)

/-- R218, R219, R220: a draft tree has at most NODES nodes, none deeper than DEPTH; the root stands first, every other node after
its parent and one level below it; a node has at most 4 children, each with another token. A walk yields at most one token a
level; every token but the last neither ends the stream nor reaches MAX_NEW; only the first is no surplus; and that first, the
committed token, does not depend on the tree. -/
def Obligations.TreesAndWalks : Prop :=
  (∀ (props : List DraftProp) (last depth nodes : Nat) (tree : List TreeNode), tree = draftTree props last depth nodes →
    1 ≤ depth → tree.length ≤ max 1 nodes ∧ tree.head? = some ⟨0, last, 1⟩ ∧ (∀ n ∈ tree, 1 ≤ n.level ∧ n.level ≤ depth) ∧
      (∀ i n, tree[i]? = some n → 0 < i → n.parent < i ∧ (tree[n.parent]?).any (fun p => p.level + 1 = n.level) = true) ∧
      (∀ k, ((tree.drop 1).filter fun n => n.parent = k).length ≤ 4) ∧
      ∀ i j a b, 0 < i → i < j → tree[i]? = some a → tree[j]? = some b → a.parent = b.parent → a.token ≠ b.token) ∧
  (∀ (x : WalkIn) (fuel v : Nat) (toks : List TokenOut) (fin : Option Status) (fb : Nat), walkTree x fuel v [] 0 = (toks, fin, fb) →
    toks.length ≤ fuel ∧
    (∀ i o, toks[i]? = some o → (o.spec = true ↔ 0 < i) ∧
      (i + 1 < toks.length → x.ends.contains o.token = false ∧ x.generated + i + 1 < x.maxNew)) ∧
    (fin = some .stoppedToken → ∃ o, toks.getLast? = some o ∧ x.ends.contains o.token = true) ∧
    (fin = some .stoppedLength → x.maxNew ≤ x.generated + toks.length) ∧
    ∀ tree k, (walkTree { x with tree := tree } (k + 1) 0 [] 0).1.head? = (walkTree x (k + 1) 0 [] 0).1.head?)

/-- R228, R229, R230: the parts of a step for one route hold every stream entry and every notice, in their order, and no part
with more than one of them is longer than 32,768 bytes; the bytes of a part are as many as its header says, a multiple of 64. -/
def Obligations.RecordParts : Prop :=
  (∀ (us : List Unit_) (ns : List (BitVec 128)) (ps : List PartBody), ps = partsOf us ns →
    ps.flatMap (·.units) = us ∧ ps.flatMap (·.notices) = ns ∧
    (∀ p ∈ ps, 1 < p.units.length + p.notices.length → p.size ≤ 32768) ∧
    ∀ p ∈ ps, 0 < p.units.length + p.notices.length) ∧
  (∀ (c : ClosingStep) (route ident part : Nat) (last : Bool) (p : PartBody),
    (recBytes (partBody c route ident part last p)).length = p.size ∧ p.size % 64 = 0 ∧
    (p.size < 2 ^ 32 → bits (partBody c route ident part last p).header.toNat 351 320 = p.size) ∧
    bits (partBody c route ident part last p).header.toNat 447 384 = c.stepEnd % 2 ^ 64 ∧
    bits (partBody c route ident part last p).header.toNat 172 172 = last.toNat)

/-! ### Embedding pool -/

/-- R247, R249, R250, R252: a row request is answered with the row as of its T while the step's serve allotment lasts, and at
once without it otherwise. An answer gives the gather its row, or, without a value, an unserved one; so does G_WAIT without
an answer. A gather with nothing awaited writes its result, counts its positions and ends. -/
def Obligations.GatherRows : Prop :=
  (∀ (s : State) (t : Nat) (hdr : BitVec 256) (b : RowReqBody) (x : Session) (s1 : State), s.Delivers t 0x30 4 hdr x s1 →
    (∀ d v, s1.tableVer b.table b.version = some d → s1.now ≤ b.time + 100000 →
      s1.heldAt b.table b.version b.row b.time = some v →
      ∀ used, used = (if s1.pool.servedStep = stepOf s1.now then s1.pool.served else 0) →
      (used + rowBytes d ≤ s1.entry 0x500003 → s1.listOf b.table b.row = none → ∃ s', exec (.rowReq t hdr b) s = .next s' ∧
        s'.out = s1.out ++ [.fabric x.ident 0x31 [b.table, b.row, b.key]
          (rowAnsWire b.table b.row b.key (some (d, v)) (s1.now + 64000000) [])] ∧
        s'.pool.servedStep = stepOf s1.now ∧ s'.pool.served = used + rowBytes d ∧
        (∀ id ver row time, s'.heldAt id ver row time = s1.heldAt id ver row time) ∧ s'.reqs = s1.reqs) ∧
      (s1.entry 0x500003 < used + rowBytes d → exec (.rowReq t hdr b) s =
        .next ((s1.count 0x501006 1).emit (.fabric x.ident 0x31 [b.table, b.row, b.key]
          (rowAnsWire b.table b.row b.key none (s1.now + 64000000) []))))) ∧
    (s1.tableVer b.table b.version = none ∨ b.time + 100000 < s1.now ∨ s1.heldAt b.table b.version b.row b.time = none →
      exec (.rowReq t hdr b) s = .next (s1.emit (.fabric x.ident 0x31 [b.table, b.row, b.key]
        (rowAnsWire b.table b.row b.key none (s1.now + 64000000) []))))) ∧
  (∀ (s : State) (t : Nat) (hdr : BitVec 256) (b : RowAnsBody) (x : Session) (s1 : State) (r : Request) (p : GatherPayload)
    (g : GatherWork), s.Delivers t 0x31 4 hdr x s1 → s1.req (b.key / 2 ^ 64) (b.key % 2 ^ 64) = some r → r.covered = 0 →
    r.gather = some (p, g) → g.table = b.table → g.await.contains b.row = true →
    ∃ s' q h, exec (.rowAns t hdr b) s = .next s' ∧ s'.req r.fn r.tag = some q ∧ q.gather = some (p, h) ∧
      h.await = g.await.filter (· ≠ b.row) ∧
      (b.value = none → h.have_ = g.have_ ∧ h.unserved = g.unserved ++ [b.row]) ∧
      (∀ v d, b.value = some v → s1.tableVer g.table g.version = some d → rowOk d v = true →
        h.have_ = g.have_ ++ [(b.row, v)] ∧ h.unserved = g.unserved) ∧ s'.out = s1.out) ∧
  (∀ (s : State) (t f tag row : Nat) (r : Request) (p : GatherPayload) (g : GatherWork), s.req f tag = some r →
    r.gather = some (p, g) →
    (r.work.since + s.entry 0x500004 ≤ max s.now t → g.await.contains row = true → ∃ s', exec (.gatherWaitExpiry t f tag row) s = .next s' ∧
      s'.req f tag = some { r with gather := some (p, { g with await := g.await.filter (· ≠ row), unserved := g.unserved ++ [row] }) } ∧
      s'.out = s.out ∧ s'.pool = s.pool) ∧
    (max s.now t < r.work.since + s.entry 0x500004 → exec (.gatherWaitExpiry t f tag row) s = .next (s.tick t)) ∧
    (∀ d c, r.round = none → g.await = [] → s.tableVer g.table g.version = some d → c = gatherCounts d p g → f < 64 →
      r.mirror = false → r.silent = false → ∃ s', exec (.gatherDone t f tag) s = .next s' ∧ s'.req f tag = none ∧
        .hostWrite f (dResAddr r.desc) (gatherBytes tag d p g).length (ofLe (gatherBytes tag d p g)) ∈ s'.out ∧
        s'.entry 0x501001 = s.entry 0x501001 + p.rows.length ∧ s'.entry 0x501004 = s.entry 0x501004 + c.2.2.1))

/-- R258, R259, R268: the close of a window adds its deltas to each row that is held here, in ascending source, whatever order
they came in; reads as of V(w) or later see the new value, reads before it the old ones. A row's old value is kept for
every read that may still be served. -/
def Obligations.WindowsAddInOrder : Prop :=
  (∀ (s : State) (t w table row : Nat) (d : TableDesc) (r : PoolRow) (qs : List QueuedDelta), s.pool.migration = none →
    s.pool.closedTo = w → (w + 2) * 50000 ≤ max s.now t → s.table table = some d → s.homeHere table row = true →
    s.poolRow table d.version row = some r → r.lost = false →
    qs = (s.pool.queue.filter fun q => q.window = w && q.table = table && q.row = row) → qs ≠ [] →
    ∃ s' new, exec (.poolWindowClose t w) s = .next s' ∧ s'.pool.closedTo = w + 1 ∧ (∀ q ∈ s'.pool.queue, q.window ≠ w ∨ q.table ≠ table ∨ q.row ≠ row) ∧
      new = applyDeltas r.value ((sortBy deltaLe qs).map (·.deltas)) ∧
      (∀ time, (w + 3) * 50000 ≤ time → s'.heldAt table d.version row time = some new) ∧
      (∀ time, time < (w + 3) * 50000 → s'.heldAt table d.version row time = some (valueAt r.value r.prev time)) ∧
      (w, d.tableId, row, new) ∈ s'.pool.journal) ∧
  (∀ (s : State) (t w : Nat), max s.now t < (w + 2) * 50000 ∨ w < s.pool.closedTo →
    exec (.poolWindowClose t w) s = .next (s.tick t)) ∧
  (∀ qs ps : List QueuedDelta, qs.Perm ps → (qs.map fun q => (q.source, q.seq)).Nodup → sortBy deltaLe qs = sortBy deltaLe ps) ∧
  (∀ (s : State) (t w : Nat), (w + 3) * 50000 ≤ max s.now t → ∃ s', exec (.poolWindowVisible t w) s = .next s' ∧ w < s'.pool.visibleTo ∧
    s'.pool.tables = s.pool.tables ∧ s'.pool.replicas = s.pool.replicas ∧ s'.out = s.out ∧ s'.reqs = s.reqs) ∧
  (∀ (s : State) (t w : Nat), (w + 3) * 50000 + 100000 ≤ max s.now t →
    (∀ x ∈ s.pool.tables, ∀ r ∈ x.rows, r.prev.Pairwise fun a b => b.1 < a.1) →
    (∀ r ∈ s.pool.replicas, r.prev.Pairwise fun a b => b.1 < a.1) →
    ∃ s', exec (.previousValueExpiry t w) s = .next s' ∧
      (∀ x ∈ s'.pool.tables, ∀ r ∈ x.rows, ∀ p ∈ r.prev, (w + 3) * 50000 < p.1) ∧
      ∀ id v row time, (w + 3) * 50000 ≤ time → s'.heldAt id v row time = s.heldAt id v row time)

/-- R254, R255, R257, R258, R260, R261: a delta for the version in force waits for its window at the row's home, one of a closed
window for the first open one; one of another version is answered as stale, one that no row takes as refused. While rows migrate,
deltas of W_F and later go on to the new home at once, where they wait for their own window and count as delayed. The answer to a
request's last delta ends it. A row read more often than the threshold gets a replica where it is read; a replica serves from
the next boundary until its announced removal, and then it is freed. -/
def Obligations.DeltasAndReplicas : Prop :=
  (∀ (s : State) (t : Nat) (hdr : BitVec 256) (b : DeltaBody) (x : Session) (s1 : State) (d : TableDesc),
    s.Delivers t 0x32 4 hdr x s1 → s1.table b.table = some d → s1.isSelf x.ident = false → s1.pairHalf b.table b.row = false →
    (b.origin = none → d.version = b.version → d.trainable = true → b.row < d.rowCount → b.deltas.length = d.dim →
      s1.homeHere b.table b.row = true → s1.migrating b.table b.row false = false → s1.pair.state ≠ .paired →
      (s1.bufferedRows (max b.window s1.pool.closedTo)).length < 65536 → ∃ s' q, exec (.delta t hdr b) s = .next s' ∧
        s'.pool.queue = s1.pool.queue ++ [q] ∧ q.window = max b.window s1.pool.closedTo ∧ q.table = b.table ∧ q.row = b.row ∧
        q.source = x.ident ∧ q.deltas = b.deltas ∧ q.key = deltaKey b.table b.row b.window ∧ s'.out = s1.out ∧
        s'.pool.tables = s1.pool.tables) ∧
    (∀ m, b.origin = none → d.version = b.version → d.trainable = true → b.row < d.rowCount → b.deltas.length = d.dim →
      s1.pool.migration = some m → m.incoming = false → m.table = b.table → m.lo ≤ b.row → b.row ≤ m.hi → m.freeze ≤ b.window →
      b.window < 2 ^ 64 → s1.partner m.newHome = true → ∃ s', exec (.delta t hdr b) s = .next s' ∧ s'.pool.queue = s1.pool.queue ∧
        s'.pool.tables = s1.pool.tables ∧ s'.out = s1.out ++ [.fabric m.newHome 0x32
          [b.table, d.version, b.row, b.window, b.window, x.ident]
          (deltaWire b.table d.version b.row b.window b.window x.ident b.deltas)]) ∧
    (∀ o, b.origin = some o → d.version = b.version → d.trainable = true → b.row < d.rowCount → b.deltas.length = d.dim →
      s1.homeHere b.table b.row = false → s1.homeOf b.table b.row = x.ident → s1.pool.migration = none →
      (s1.bufferedRows (b.late.getD b.window)).length < 65536 → ∃ s' q, exec (.delta t hdr b) s = .next s' ∧
        s'.pool.queue = s1.pool.queue ++ [q] ∧ q.window = b.late.getD b.window ∧ q.table = b.table ∧ q.row = b.row ∧
        q.source = o ∧ q.via = some x.ident ∧ q.deltas = b.deltas ∧ s'.entry 0x50100B = s1.entry 0x50100B + 1 ∧ s'.out = s1.out) ∧
    (b.origin = none → d.version ≠ b.version → exec (.delta t hdr b) s =
      .next ((s1.count 0x50100A 1).emit (.fabric x.ident 0x33 [deltaKey b.table b.row b.window]
        (deltaAnsWire (deltaKey b.table b.row b.window) false true)))) ∧
    (b.origin = none → d.version = b.version → (d.trainable = false ∨ d.rowCount ≤ b.row ∨ b.deltas.length ≠ d.dim) →
      exec (.delta t hdr b) s =
        .next ((s1.emit (.fabric x.ident 0x33 [deltaKey b.table b.row b.window]
          (deltaAnsWire (deltaKey b.table b.row b.window) false false))).count 0x501009 1))) ∧
  (∀ (s : State) (t key f tag : Nat) (hdr : BitVec 256) (applied stale : Bool) (x : Session) (s1 : State) (r : Request)
    (p : UpdatePayload) (u : UpdateWork), s.Delivers t 0x33 4 hdr x s1 → s1.pool.forwarded.filter (fun p => p.1 = key) = [] →
    s1.req f tag = some r → r.update = some (p, u) → u.homes.contains key = true →
    ∃ s', exec (.deltaAns t hdr key applied stale) s = .next s' ∧
      (u.homes.filter (· ≠ key) = [] → s'.req f tag = none) ∧
      (u.homes.filter (· ≠ key) ≠ [] → s'.req f tag = some { r with update := some (p, answerWork key applied stale u) })) ∧
  (∀ (s : State) (t : Nat), s.pool.reads = [] → s.pool.lists = [] → exec (.hotSlotEnd t) s = .next (s.tick t)) ∧
  (∀ (s : State) (t table row id n : Nat) (d : TableDesc) (p : PoolRow), s.pool.reads = [(table, row, id, n)] → s.pool.lists = [] →
    s.homeHere table row = true → s.entry 0x500005 < n → s.table table = some d → s.poolRow table d.version row = some p →
    p.lost = false → s.isSelf id = false → s.partner id = true → 1 ≤ s.entry 0x500006 →
    ∃ s' l, exec (.hotSlotEnd t) s = .next s' ∧ s'.pool.reads = [] ∧ s'.pool.lists = [l] ∧ l.holders = [id] ∧ l.mine = true ∧
      l.table = table ∧ l.row = row ∧
      s'.out = s.out ++ [.fabric id 0x34 [table, d.version, row] (replicaWire d 0 p.row 0 (some p.value) p.prev.head?)]) ∧
  (∀ (s : State) (t : Nat) (hdr : BitVec 256) (b : ReplicaBody) (x : Session) (s1 : State), s.Delivers t 0x34 4 hdr x s1 →
    x.ident = s1.homeOf b.table b.row →
    (∀ time, b.remove = some time → ∃ s', exec (.replica t hdr b) s = .next s' ∧ s'.pool.tables = s1.pool.tables ∧
      s'.pool.replicas = s1.pool.replicas.map fun r => if r.table = b.table ∧ r.row = b.row then { r with removeAt := some time } else r) ∧
    (∀ d, b.remove = none → s1.tableVer b.table b.version = some d → rowOk d b.value = true →
      s1.poolRow b.table b.version b.row = none → (∀ r ∈ s1.pool.replicas, r.table ≠ b.table ∨ r.row ≠ b.row) →
      s1.rowRoom d b.copy = true →
      ∃ s', exec (.replica t hdr b) s = .next s' ∧ (∀ time, time < (stepOf s1.now + 1) * 50000 →
          s'.heldAt b.table b.version b.row time = none) ∧
        (∀ time, (stepOf s1.now + 1) * 50000 ≤ time → b.prev = none → s'.heldAt b.table b.version b.row time = some b.value))) ∧
  (∀ (s : State) (t table row : Nat), ∃ s', exec (.replicaRemovalTime t table row) s = .next s' ∧
    ∀ r, r ∈ s'.pool.replicas ↔ r ∈ s.pool.replicas ∧ ¬ (r.table = table ∧ r.row = row ∧ ∃ x, r.removeAt = some x ∧ x ≤ max s.now t))

/-- R261, R264, R265: a later map of a migration is staged until its CUT. From W_F the old copy is frozen; at the end of the copy
the new map and CUT, a window boundary 100 to 150 µs ahead, are fixed; from CUT the new map is in force; at the switch the old
copy is gone and MIGRATE ends. A part counts as loaded up to 500 µs before its switch; one that fails or is late then is abandoned with everything of its switch time, and what is in
force stays. -/
def Obligations.MapsAndMigration : Prop :=
  (∀ (s : State) (t cut : Nat) (hdr : BitVec 256) (m : MapImage) (x : Session) (s1 : State), s.Delivers t 0x35 4 hdr x s1 →
    (mapOk m = true → s1.pool.haveMap = false ∨ laterEpoch m.epoch s1.pool.epoch.toNat = true →
      ∃ s', exec (.map t hdr m cut) s = .next s' ∧ s'.pool = { s1.pool with staged := s1.pool.staged ++
        [{ switchTime := cut, map := some m, loaded := true, fn := 65536, tag := 0 }] }) ∧
    (mapOk m = false ∨ (s1.pool.haveMap = true ∧ laterEpoch m.epoch s1.pool.epoch.toNat = false) →
      exec (.map t hdr m cut) s = .next s1)) ∧
  (∀ (s : State) (t : Nat) (m : Migration), s.pool.migration = some m → m.incoming = false →
    (stepOf (max s.now t) < m.freeze → exec (.migrateFreeze t) s = .next (s.tick t)) ∧
    (m.freeze ≤ stepOf (max s.now t) → exec (.migrateFreeze t) s =
      .next { s.tick t with pool := { s.pool with migration := some { m with frozen := true } } }) ∧
    (∀ d, s.table m.table = some d → m.frozen = true → m.copied = false → m.freeze ≤ s.pool.closedTo →
      (s.frozenRows m d).length * rowBytes d ≤ (s.tick t).copyRoom m → ∃ s' c y, exec (.migrateCopyDone t) s = .next s' ∧ s'.pool.migration = some { m with copied := true, cut := some c } ∧
        c % 50000 = 0 ∧ max s.now t + 100000 ≤ c ∧ c < max s.now t + 150000 ∧
        s'.pool.staged = s.pool.staged ++ [{ switchTime := c, map := some y, loaded := true, fn := 65536, tag := 0 }] ∧
        y.epoch = (s.pool.epoch.toNat + 1) % 2 ^ 32 ∧ y.descs = s.pool.descs ∧
        s'.pool.tables = s.pool.tables ∧ s'.pool.ranges = s.pool.ranges) ∧
    (∀ c, m.cut = some c → max s.now t < c → exec (.migrateSwitch t) s = .next (s.tick t)) ∧
    (∀ c r, m.cut = some c → c ≤ max s.now t → s.homeHere m.table m.lo = false → s.req m.fn m.tag = some r → r.publish.isSome = true →
      ∃ s', exec (.migrateSwitch t) s = .next s' ∧ s'.pool.migration = none ∧ s'.req m.fn m.tag = none ∧
        (∀ x ∈ s'.pool.tables, x.desc.tableId = m.table → ∀ y ∈ x.rows, y.row < m.lo ∨ m.hi < y.row) ∧
        ∀ id v row, id ≠ m.table ∨ row < m.lo ∨ m.hi < row → s'.poolRow id v row = s.poolRow id v row)) ∧
  (∀ (s : State) (t : Nat), (∀ p ∈ s.pool.staged, p.fn ≠ 65536 ∨ max s.now t < p.switchTime) →
    exec (.migrateCut t) s = .next (s.tick t)) ∧
  (∀ (s : State) (t : Nat) (p : StagedPub) (m : MapImage), s.pool.staged = [p] → p.fn = 65536 → p.map = some m →
    p.switchTime ≤ max s.now t → ∃ s', exec (.migrateCut t) s = .next s' ∧ s'.pool.staged = [] ∧
      s'.pool.epoch = BitVec.ofNat 32 m.epoch ∧ s'.pool.ranges = m.ranges ∧ s'.pool.descs = m.descs ∧ s'.pool.haveMap = true) ∧
  (∀ (s : State) (t table : Nat) (failed : Bool) (p : StagedPub), s.stagedFor table = some p →
    (failed = false → max s.now t + 500000 < p.switchTime → exec (.tablePublishAbandon t table failed) s = .next (s.tick t)) ∧
    (p.loaded = false ∨ p.table = none → failed = true ∨ p.switchTime ≤ max s.now t + 500000 →
      ∃ s', exec (.tablePublishAbandon t table failed) s = .next s' ∧
        s'.pool = { s.pool with staged := s.pool.staged.filter fun q => !published q || q.switchTime ≠ p.switchTime } ∧
        ∀ q ∈ s.pool.staged, published q = true → q.switchTime = p.switchTime → ∀ r, s.req q.fn q.tag = some r →
          r.publish.isSome = true → s'.req q.fn q.tag = none)) ∧
  (∀ (s : State) (t table : Nat), ∃ s', exec (.tablePartLoaded t table) s = .next s' ∧ s'.pool.tables = s.pool.tables ∧
    s'.pool.staged.length = s.pool.staged.length ∧ s'.out = s.out ∧ s'.reqs = s.reqs ∧
    (∀ p ∈ s'.pool.staged, p.table.any (fun x => x.desc.tableId = table) = true → max s.now t + 500000 ≤ p.switchTime →
      p.loaded = true) ∧ ∀ p ∈ s.pool.staged, p.switchTime < max s.now t + 500000 → p ∈ s'.pool.staged)

/-- R268: after a checkpoint every row held here would be rebuilt to its present value; the end of a rebuild brings a lost row back
with the value of its journal, checkpoint or image, and counts it. -/
def Obligations.RowsAreRebuilt : Prop :=
  ∀ (s : State) (t table row : Nat) (d : TableDesc) (x : PoolTable) (r : PoolRow), s.table table = some d →
    s.poolTable table d.version = some x → s.poolRow table d.version row = some r →
    (x.desc.trainable = true → r.lost = false → ∃ s', exec (.poolCheckpoint t) s = .next s' ∧ s'.rebuilt x row = some r.value ∧
      s'.pool.tables = s.pool.tables ∧ s'.out = s.out ∧ s'.reqs = s.reqs) ∧
    (r.lost = false → exec (.poolRowRebuildDone t table row) s = .next (s.tick t)) ∧
    (∀ v, r.lost = true → s.rebuilt x row = some v → (∀ q ∈ s.pool.queue, q.table ≠ table ∨ q.row ≠ row) →
      ∃ s', exec (.poolRowRebuildDone t table row) s = .next s' ∧
        s'.poolRow table d.version row = some { r with value := v, prev := [], lost := false } ∧
        s'.entry 0x50100F = s.entry 0x50100F + 1 ∧ s'.pool.queue = s.pool.queue ∧ s'.out = s.out)

/-! ### Etnan: links, sessions, time -/

/-- R273, R274, R275, R276, R277: training, FEC lock, LINK_HELLO; a frame in order is taken, a duplicate dropped, a bad or early
one answered with NAK, any other resets the port; acknowledged frames leave the replay buffer and credits come back. Frames
without an acknowledgement are replayed; one replayed 8 times, a fault, or the neighbour's LANE_MAP takes the lane out of
service, and the neighbour hears of it. -/
def Obligations.Links : Prop :=
  ∀ (s : State) (t p l : Nat),
    (p < s.fab.ports.length → l < (s.port p).lanes.length → ∃ s', exec (.portTrainingDone t p l) s = .next s' ∧
      (s'.port p).lanes.getD l {} = { (s.port p).lanes.getD l {} with trained := true } ∧ (∀ q, q ≠ p → s'.port q = s.port q) ∧
      s'.out = s.out) ∧
    (((s.port p).lanes.getD l {}).trained = true → ∃ s' v, exec (.fecLock t p l) s = .next s' ∧
      ((s'.port p).lanes.getD l {}).fec = true ∧ (s'.port p).inService = (s.port p).inService ∧
      s'.out = s.out ++ [if (s.port p).inService then .link p 0 v else .link p 3 (s.fab.ident :: v)]) ∧
    (((s.port p).lanes.getD l {}).trained = false → exec (.fecLock t p l) s = .next (s.tick t)) ∧
    (∀ n (lanes : BitVec 4) credits, (s.port p).lanes.any (·.fec) = true → ∃ s', exec (.linkHello t p n lanes credits) s = .next s' ∧
      (s'.port p).neighbour = n ∧ (s'.port p).txSeq = 0 ∧ (s'.port p).rxSeq = 0 ∧ (s'.port p).replay = [] ∧
      (∀ k, k < (s.port p).lanes.length →
        ((s'.port p).lanes.getD k {}).inService = (((s.port p).lanes.getD k {}).fec && lanes.getLsbD k)) ∧
      (s'.port p).inService = (s'.port p).lanes.any (·.inService) ∧ (∀ q, q ≠ p → s'.port q = s.port q)) ∧
    (∀ n lanes credits, (s.port p).lanes.any (·.fec) = false → exec (.linkHello t p n lanes credits) s = .next (s.tick t)) ∧
    (∀ h ok, (s.port p).inService = false → exec (.linkFrameReceive t p h ok) s = .next (s.tick t)) ∧
    (∀ h ok d, (s.port p).inService = true → d = (lSeq h + 65536 - (s.port p).rxSeq.toNat) % 65536 →
      (frameOk h ok = false → exec (.linkFrameReceive t p h ok) s =
        .next ((s.tick t).emit (.link p 1 [((s.port p).rxSeq.toNat + 65535) % 65536]))) ∧
      (frameOk h ok = true → lNak h = false → ∃ s', exec (.linkFrameReceive t p h ok) s = .next s' ∧
        (d = 0 → (s'.port p).rxSeq = (s.port p).rxSeq + 1) ∧
        ((∀ q ∈ s.tx.waiting, s.portOf q ≠ some p) → d = 0 ∨ 32768 ≤ d → s'.out = s.out ∧ s'.tx = s.tx ∧
          (s'.port p).txSeq = (s.port p).txSeq ∧
          (s'.port p).credits = modAt (s.port p).credits (lCrClass h) (fun c => c + lCrUnits h) ∧
          ∀ f ∈ (s'.port p).replay, f ∈ (s.port p).replay ∧ 32768 ≤ (lAck h + 65536 - f.1.toNat) % 65536) ∧
        (∀ q, s.tx.waiting = [q] → q.cls ≤ 1 → q.len ≤ 4064 → s.portOf q = some p → q.credits ≤ (s.port p).credits.getD q.cls 0 →
          (s.port p).replay.length < 1024 → d = 0 ∨ 32768 ≤ d → s'.tx.waiting = [] ∧ (s'.port p).txSeq = (s.port p).txSeq + 1 ∧
          ((s.port p).txSeq, 0) ∈ (s'.port p).replay ∧ ∃ v, s'.out = s.out ++ [.link p 5 [v, q.hdr.toNat]] ∧
          bits v 127 112 = (s.port p).txSeq.toNat ∧ bits v 95 93 = q.cls) ∧
        (32768 ≤ d → (s'.port p).rxSeq = (s.port p).rxSeq) ∧
        (0 < d → d < 1024 → (s'.port p).rxSeq = (s.port p).rxSeq ∧
          s'.out = s.out ++ [.link p 1 [((s.port p).rxSeq.toNat + 65535) % 65536]]) ∧
        (1024 ≤ d → d < 32768 → (s'.port p).inService = false ∧ (s'.port p).rxSeq = 0 ∧ (s'.port p).txSeq = 0 ∧
          (s'.port p).replay = [] ∧ ∃ v, s'.out = s.out ++ [.link p 3 (s.fab.ident :: v)]))) ∧
    ((s.port p).replay = [] → exec (.linkReplayTimeout t p l) s = .next (s.tick t)) ∧
    ((s.port p).replay ≠ [] → (∀ f ∈ (s.port p).replay, f.2 < 7) → ∃ s', exec (.linkReplayTimeout t p l) s = .next s' ∧
      s'.out = s.out ++ (s.port p).replay.map (fun f => .link p 2 [f.1.toNat]) ∧
      (s'.port p).replay = (s.port p).replay.map (fun f => (f.1, f.2 + 1)) ∧
      s'.entry 0xA20001 = s.entry 0xA20001 + (s.port p).replay.length) ∧
    (((s.port p).lanes.getD l {}).inService = true →
      ((∃ f ∈ (s.port p).replay, 7 ≤ f.2) → ∃ s', exec (.linkReplayTimeout t p l) s = .next s' ∧
        ((s'.port p).lanes.getD l {}).inService = false ∧ s'.entry 0xA20002 = s.entry 0xA20002 + 1) ∧
      (l < 4 → ∃ s' v, exec (.laneFault t (4 * p + l)) s = .next s' ∧ ((s'.port p).lanes.getD l {}).inService = false ∧
        s'.entry 0xA20002 = s.entry 0xA20002 + 1 ∧ .link p 0 v ∈ s'.out) ∧
      (∃ s' v, exec (.laneMap t p l false) s = .next s' ∧ ((s'.port p).lanes.getD l {}).inService = false ∧
        s'.out = s.out ++ [.link p 0 v])) ∧
    (((s.port p).lanes.getD l {}).fec = true → ((s.port p).lanes.getD l {}).inService = false → (s.port p).inService = true →
      ∃ s' v, exec (.laneMap t p l true) s = .next s' ∧ ((s'.port p).lanes.getD l {}).inService = true ∧ s'.out = s.out ++ [.link p 0 v])

/-- R280, R281, R283, R284: an open toward a module with room makes a session with the next number and is accepted; with no room
it is refused. An answer opens the session that was asked for, or ends the try for 1 ms; so does silence for 20 µs. A close,
or 3 ms of silence, ends a session; its index is free at once when no stream is routed to it. Keepalives leave on every
open session, and each one that arrives enters the path bound. -/
def Obligations.Sessions : Prop :=
  (∀ (s : State) (t roles : Nat) (h : BitVec 256), s.addressed h = true → hdrOk 0x01 5 h = true → hDsess h = 0 →
    (∀ x ∈ s.fab.sessions, x.ident ≠ hSrc h) → s.fab.sessions.length < 4096 →
    ∃ s' x v, exec (.sessionOpen t h roles) s = .next s' ∧ s'.session (hSrc h) = some x ∧ x.lsess = s.fab.nextSess ∧
      x.rsess = hSsess h ∧ x.lastRx = max s.now t ∧ (∀ y ∈ s.fab.sessions, y.idx ≠ x.idx) ∧
      s'.fab.sessions.length = s.fab.sessions.length + 1 ∧ s'.fab.changed = true ∧
      s'.out = s.out ++ [.fabric (hSrc h) 0x02 [hSsess h, s.fab.nextSess] v]) ∧
  (∀ (s : State) (t roles : Nat) (h : BitVec 256) (s2 : State), s.addressed h = true → hdrOk 0x01 5 h = true → hDsess h = 0 →
    (∀ x ∈ s.fab.sessions, x.ident ≠ hSrc h) → (s.tick t).roomSession = (s2, none) →
    exec (.sessionOpen t h roles) s = .next ((s2.count 0xA20004 1).emit (.fabric (hSrc h) 0x03 [hSsess h, 0] (sessionWire s.fab.epoch.toNat 0)))) ∧
  (∀ (s : State) (t roles : Nat) (h : BitVec 256) (x : Session), s.addressed h = true → s.openFor h = some x →
    (hdrOk 0x02 5 h = true → ∃ s' y, exec (.sessionAccept t h roles) s = .next s' ∧ y ∈ s'.fab.sessions ∧ y.idx = x.idx ∧
      y.state = .opened ∧ y.rsess = hSsess h ∧ y.lsess = x.lsess ∧ s'.fab.changed = true ∧ s'.out = s.out) ∧
    (hdrOk 0x03 5 h = true → ∃ s', exec (.sessionRefuse t h) s = .next s' ∧ (∀ y ∈ s'.fab.sessions, y.idx ≠ x.idx) ∧
      (x.ident, max s.now t) ∈ s'.fab.unreachable ∧ s'.entry 0xA20004 = s.entry 0xA20004 + 1)) ∧
  (∀ (s : State) (t id : Nat) (x : Session), s.fab.sessions.find? (fun x => x.state = .opening && x.ident = id) = some x →
    (x.openedAt + 20000 ≤ max s.now t → ∃ s', exec (.sessionOpenTimeout t id) s = .next s' ∧
      (∀ y ∈ s'.fab.sessions, y.idx ≠ x.idx) ∧ (id, max s.now t) ∈ s'.fab.unreachable ∧
      s'.entry 0xA20004 = s.entry 0xA20004 + 1 ∧ s'.out = s.out) ∧
    (max s.now t < x.openedAt + 20000 → exec (.sessionOpenTimeout t id) s = .next (s.tick t))) ∧
  (∀ (s : State) (t : Nat) (h : BitVec 256) (x : Session) (s1 : State), s.Delivers t 0x04 5 h x s1 → s1.routedTo x.idx = [] →
    ∃ s', exec (.sessionClose t h) s = .next s' ∧ (∀ y ∈ s'.fab.sessions, y.idx ≠ x.idx) ∧ s'.fab.changed = true ∧
      (∀ d ∈ s'.dict.sessions, ¬ (d.transport = .etnan ∧ d.channel = x.idx))) ∧
  (∀ (s : State) (t idx : Nat) (x : Session), s.fab.sessions.find? (fun x => x.idx = idx && x.state = .opened) = some x →
    (max s.now t < x.lastRx + 3000000 → exec (.sessionIdleTimeout t idx) s = .next (s.tick t)) ∧
    (x.lastRx + 3000000 ≤ max s.now t → s.routedTo idx = [] → ∃ s', exec (.sessionIdleTimeout t idx) s = .next s' ∧
      (∀ y ∈ s'.fab.sessions, y.idx ≠ idx) ∧ s'.fab.changed = true)) ∧
  (∀ (s : State) (t : Nat), ∃ s', exec (.keepaliveSend t) s = .next s' ∧ s'.fab = s.fab ∧ s'.reqs = s.reqs ∧
    s'.out = s.out ++ (s.fab.sessions.filter fun x => x.state = .opened).map
      fun x => .fabric x.ident 0x05 [x.rsess, x.lsess] (timeWire (max s.now t))) ∧
  (∀ (s : State) (t sent : Nat) (h : BitVec 256) (x : Session) (s1 : State), s.Delivers t 0x05 5 h x s1 →
    ∃ s', exec (.keepalive t h sent) s = .next s' ∧ s'.fab.sessions.length = s1.fab.sessions.length ∧ s'.out = s1.out ∧
      ∀ y ∈ s'.fab.sessions, y.ident = x.ident → y.state = .opened →
        y.paths.head? = some (s1.now - sent) ∧ y.paths.length ≤ 64 ∧ s1.now - sent + 2000 ≤ y.pathNs)

/-- R285, R442: 16 Syncs in a row within 250 ns lock the timer, an offset beyond 1 ms frees it, any other starts the row anew; a
Sync that is not valid, or not from a port in service, changes nothing but time. Without Syncs LOCKED becomes HOLDOVER, and
after 10 s FREE_RUN, where the time base is not held. The module's own Sync leaves on every port in service, and on no other. -/
def Obligations.TimeStates : Prop :=
  ∀ (s : State) (t p : Nat),
    (∀ (o : Int) v, v = false ∨ (s.port p).inService = false → exec (.ptpSync t p o v) s = .next (s.tick t)) ∧
    (∀ o : Int, (s.port p).inService = true → ∃ s', exec (.ptpSync t p o true) s = .next s' ∧ s'.ptp.offset = o ∧
      (1000000 < o.natAbs → s'.ptp.state = .freeRun ∧ s'.timeHeld = false) ∧
      (o.natAbs ≤ 250 → 15 ≤ s.ptp.good → s'.ptp.state = .locked ∧ s'.timeHeld = true ∧ s'.mod.baseHeld = true) ∧
      (o.natAbs ≤ 250 → s.ptp.good < 15 → s'.ptp.state = s.ptp.state ∧ s'.ptp.good = s.ptp.good + 1) ∧
      (250 < o.natAbs → o.natAbs ≤ 1000000 → s'.ptp.state = s.ptp.state ∧ s'.ptp.good = 0) ∧ s'.reqs = s.reqs ∧ s'.fab = s.fab) ∧
    (s.ptp.state = .locked → ∃ s', exec (.holdoverEntry t) s = .next s' ∧ s'.ptp.state = .holdover ∧ s'.timeHeld = true ∧
      s'.ptp.holdoverAt = max s.now t ∧ s'.reqs = s.reqs) ∧
    (s.ptp.state ≠ .locked → exec (.holdoverEntry t) s = .next (s.tick t)) ∧
    (s.ptp.state = .holdover → s.ptp.holdoverAt + 10000000000 ≤ max s.now t → ∃ s', exec (.holdoverExpiry t) s = .next s' ∧
      s'.ptp.state = .freeRun ∧ s'.timeHeld = false ∧ s'.pins.ppsOut = false ∧ s'.reqs = s.reqs) ∧
    (s.ptp.state ≠ .holdover ∨ max s.now t < s.ptp.holdoverAt + 10000000000 → exec (.holdoverExpiry t) s = .next (s.tick t)) ∧
    (∃ s', exec (.syncInterval t) s = .next s' ∧ s'.ptp = s.ptp ∧ s'.reqs = s.reqs ∧
      ∀ k, k < 16 → (s'.port k).txSeq = (s.port k).txSeq + (if (s.port k).inService then 1 else 0) ∧
        ((s.port k).inService = true → .link k 4 [max s.now t] ∈ s'.out))

/-! ### Index groups and hand-offs -/

/-- R121, R138, R265: publication control and slates of a group. An abandonment ends the publication and leaves the version in
force; the owner's switch makes the new version stream from its sweep on. The owner keeps a member's part of an open slate
once; a member takes the owner's slate, and its queries left out are trimmed. What comes from another sender has no effect. -/
def Obligations.GroupControl : Prop :=
  (∀ (s : State) (t : Nat) (hdr : BitVec 256) (b : PublishControlBody) (x : Session) (s1 : State), s.Delivers t 0x08 5 hdr x s1 →
    (3 < b.kind → exec (.publishControl t hdr b) s = .next s1.discard) ∧
    (b.index = false → b.kind = 2 → ∃ s', exec (.publishControl t hdr b) s = .next s' ∧ s'.pool = { s1.pool with
      staged := s1.pool.staged.filter fun p => !published p || p.switchTime ≠ b.value }) ∧
    (b.index = true → s1.index.pub = none → b.kind ≤ 3 → exec (.publishControl t hdr b) s = .next s1) ∧
    (∀ p m, b.index = true → s1.index.pub = some p → memberOf p.img x.ident = some m → p.img.version = b.version →
      (b.kind = 2 → ∃ s', exec (.publishControl t hdr b) s = .next s' ∧ s'.index.pub = none ∧
        s'.index.live.head? = s1.index.live.head? ∧ s'.req p.fn p.tag = none) ∧
      (b.kind = 0 → s1.isOwner p.img = false → ∃ s' q, exec (.publishControl t hdr b) s = .next s' ∧ s'.index.pub = some q ∧
        m ∈ q.reported ∧ q.switchSweep = p.switchSweep ∧ s'.out = s1.out) ∧
      (∀ c old, b.kind = 1 → m = s1.owner p.img → p.loaded = true → s1.index.live = c :: old →
        ∃ s', exec (.publishControl t hdr b) s = .next s' ∧ s'.req p.fn p.tag = none ∧ (∀ n, n < b.value → s'.imgOf n = some c) ∧
          (∀ n, b.value ≤ n → s'.imgOf n = some ⟨p.vocab, p.img, p.digest, p.imageId, p.bytes⟩)))) ∧
  (∀ (s : State) (t n : Nat) (hdr : BitVec 256) (items : List SlateItem) (x : Session) (s1 : State) (v : IndexVer) (m : Nat),
    s.Delivers t 0x10 2 hdr x s1 → s1.imgOf n = some v → memberOf v.img x.ident = some m →
    (n < s1.sweep.nextNo ∨ s1.isOwner v.img = false ∨ s1.sweep.groupFrom.contains (n, m) = true →
      exec (.slateBook t hdr n items) s = .next s1) ∧
    (n = s1.openSweep → s1.isOwner v.img = true → s1.sweep.groupFrom.contains (n, m) = false →
      ∃ s', exec (.slateBook t hdr n items) s = .next s' ∧ s'.sweep.groupFrom = (n, m) :: s1.sweep.groupFrom ∧
        s'.sweep.groupItems = s1.sweep.groupItems ++ (items.filter fun i => i.member = m).map (fun i => (n, i)) ∧
        s'.sweep.closed = s1.sweep.closed ∧ s'.out = s1.out ∧ s'.reqs = s1.reqs)) ∧
  (∀ (s : State) (t n : Nat) (hdr : BitVec 256) (items : List SlateItem) (x : Session) (s1 : State) (v : IndexVer),
    s.Delivers t 0x11 2 hdr x s1 → s1.imgOf n = some v →
    (memberFab v.img (s1.owner v.img) ≠ x.ident → exec (.slate t hdr n items) s = .next s1) ∧
    (∀ mine, memberFab v.img (s1.owner v.img) = x.ident → getKey s1.sweep.closed n = some mine →
      ∃ s', exec (.slate t hdr n items) s = .next s' ∧
        getKey s'.sweep.closed n = some (items.map (s1.posOfItem v.img.member)) ∧ s'.out = s1.out ∧
        ∀ p ∈ mine, p.member = v.img.member →
          (∀ q ∈ items.map (s1.posOfItem v.img.member), q.fn ≠ p.fn ∨ q.tag ≠ p.tag) → ∀ r, s1.req p.fn p.tag = some r →
          s'.req p.fn p.tag = some { r with work := { r.work with
            trimmed := true, trimNo := if r.work.trimmed then r.work.trimNo else n, sweepNo := none } }))

/-- R132, R160: lists and candidates of partners. A list in time for an own position of its sweep and version is kept with the
position; any other is discarded and counted. Candidates are served from the remote allotment, and refused at once when it is
exhausted, the version is not live or the state does not sweep. An answer in time is learned and its shard no longer awaited;
any other changes nothing. -/
def Obligations.PartnerMessages : Prop :=
  (∀ (s : State) (t : Nat) (hdr : BitVec 256) (b : PartnerListBody) (x : Session) (s1 : State), s.Delivers t 0x12 2 hdr x s1 →
    (bits b.header.toNat 252 0 ≠ 0 → exec (.partnerList t hdr b) s = .next s1.discard) ∧
    (bits b.header.toNat 252 0 = 0 → (∀ e ∈ b.entries, bits e.toNat 15 0 = 0) →
      (s1.listTarget x.ident b false = none → exec (.partnerList t hdr b) s = .next (s1.count 0x302007 1)) ∧
      (∀ f tag r w, s1.listTarget x.ident b false = some (f, tag) → s1.req f tag = some r → r.covered = 0 → r.work.result = none →
        s1.sweepNo (plSweep b.header) = some w → ∃ s' y, exec (.partnerList t hdr b) s = .next s' ∧
          s'.sweepNo (plSweep b.header) = some y ∧ y.partners = w.partners ++ [(plPos b.header, partnerSrc b)] ∧
          y.slate = w.slate ∧ y.lists = w.lists ∧ s'.reqs = s1.reqs ∧ s'.out = s1.out))) ∧
  (∀ (s : State) (t : Nat) (hdr : BitVec 256) (b : CandBody) (x : Session) (s1 : State), s.Delivers t 0x13 2 hdr x s1 →
    (s1.liveVer b.version = none ∨ sweeping s1.mod.op = false → exec (.candReq t hdr b) s =
      .next (s1.emit (.fabric x.ident 0x14 [b.tag, b.version, b.passages.toNat, 1]
        (candAnsWire b.tag b.version b.passages true ((s1.liveVer b.version).elim 0 (·.img.shardId))
          ((s1.liveVer b.version).elim 0 (·.img.headTokens)) [])))) ∧
    (∀ v used, s1.liveVer b.version = some v → sweeping s1.mod.op = true →
      used = (if s1.pool.candSlot = s1.now / 1000000 then s1.pool.candServed else 0) →
      (s1.entry 0x310002 < used + candBytes v.img b → exec (.candReq t hdr b) s =
        .next (s1.emit (.fabric x.ident 0x14 [b.tag, b.version, b.passages.toNat, 1]
        (candAnsWire b.tag b.version b.passages true ((s1.liveVer b.version).elim 0 (·.img.shardId))
          ((s1.liveVer b.version).elim 0 (·.img.headTokens)) [])))) ∧
      (b.passages = true → used + candBytes v.img b ≤ s1.entry 0x310002 → ∃ s', exec (.candReq t hdr b) s = .next s' ∧
        s'.pool.candServed = used + candBytes v.img b ∧ s'.pool.candSlot = s1.now / 1000000 ∧ s'.reqs = s1.reqs ∧
        s'.out = s1.out ++ [.fabric x.ident 0x14 [b.tag, b.version, 1, 0] (candAnsWire b.tag b.version true false v.img.shardId
          v.img.headTokens (b.items.map fun c => candAnswer v.img ((s1.img.vocabs.find? fun y => y.copy_ = v.vocab).map (·.img)) b c.ord))]))) ∧
  (∀ (s : State) (t : Nat) (hdr : BitVec 256) (b : CandBody) (x : Session) (s1 : State), s.Delivers t 0x14 2 hdr x s1 →
    (s1.candTarget x.ident b false = none → exec (.candAns t hdr b) s = .next s1) ∧
    (∀ r sh, s1.candTarget x.ident b false = some (r, sh) → s1.req r.fn r.tag = some r → r.covered = 0 →
      ∃ s', exec (.candAns t hdr b) s = .next s' ∧ s'.req r.fn r.tag = some { r with work := { r.work with
          remote := r.work.remote.filter (· ≠ sh), cands := r.work.cands.map (candLearn b sh) } } ∧ s'.out = s1.out ∧
        s'.entry 0x311006 = s1.entry 0x311006 + b.refused.toNat))

/-- R164, R165, R289, R291, R292: hand-offs. A duplicate gets the kept answer, a hand-off that a check stops its status and
nothing more, an admitted one runs here as a stream whose records go to RETURN_ID. An acceptance ends the ASK and its handle is
kept; a refusal goes on to the next target or ends it; a late acceptance is cancelled and counted. A cancellation waits for
the stream's boundary. A record of a target goes to the function that handed off; entries of no accepted hand-off are dropped. -/
def Obligations.Handoffs : Prop :=
  (∀ (s : State) (t : Nat) (hdr : BitVec 256) (b : HandoffBody) (x : Session) (s1 : State), s.Delivers t 0x20 3 hdr x s1 →
    (bits b.header.toNat 319 0 ≠ 0 → exec (.handoff t hdr b) s = .next s1.discard) ∧
    (∀ k, bits b.header.toNat 319 0 = 0 →
      s1.fab.kept.find? (fun k => k.origin = hoOrigin b.header && k.tag = hoTag b.header && s1.now < k.until_) = some k →
      exec (.handoff t hdr b) s = .next ((s1.count 0xA20007 1).emit (.fabric x.ident 0x21 [k.tag]
        (handoffAnsWire k.tag (statusCode k.status) k.promise.toNat)))) ∧
    (bits b.header.toNat 319 0 = 0 → s1.req (1000 + x.idx) (hoTag b.header) = none → (s1.fab.sessions.map (·.idx)).Nodup →
      s1.fab.kept.find? (fun k => k.origin = hoOrigin b.header && k.tag = hoTag b.header && s1.now < k.until_) = none →
      (∀ st, s1.checkHandoff b (handGen b.gen (hoTokens b.header)) = some st → ∃ s', exec (.handoff t hdr b) s = .next s' ∧
        s'.reqs = s1.reqs ∧ s'.seq = s1.seq ∧ s'.out = s1.out ++ [.fabric x.ident 0x21 [hoTag b.header]
          (handoffAnsWire (hoTag b.header) (statusCode st) (if st = .done then (BitVec.ofNat 256 ({} : Promise).encode).toNat else 0))] ∧
        ∃ k ∈ s'.fab.kept, k.origin = hoOrigin b.header ∧ k.tag = hoTag b.header ∧ k.status = st ∧ k.until_ = s1.now + 1000000000) ∧
      (∀ m y n s2, s1.checkHandoff b (handGen b.gen (hoTokens b.header)) = none →
        s1.modelId (gModel (handGen b.gen (hoTokens b.header))) 1 = some m → s1.session (hoReturn b.header) = some y →
        n ∈ s1.stepChoices (s1.handRequest x b) m → s1.handStream x y b m n = some s2 →
        (∀ k ∈ s1.stepChoices (s1.handRequest x b) m, k < n → s1.handStream x y b m k = none) → membersOf m ≤ 1 →
        s1.pair.state ≠ .paired → ∃ s' q slot, exec (.handoff t hdr b) s = .next s' ∧
          s'.req (1000 + x.idx) (hoTag b.header) = some q ∧ q.gen = true ∧ q.origin = x.idx + 1 ∧ q.work.stage = 13 ∧
          q.work.prompt = b.prompt.map (fun w => bits w.toNat 17 0) ∧ slot = q.promise.handle / 65536 ∧
          (s'.slot slot).state = .reserved ∧ (s'.slot slot).route = 0x8000 + y.idx ∧ (s'.slot slot).prompt = b.prompt.length ∧
          .fabric x.ident 0x21 [hoTag b.header]
            (handoffAnsWire (hoTag b.header) 0 (BitVec.ofNat 256 q.promise.encode).toNat) ∈ s'.out))) ∧
  (∀ (s : State) (t tag : Nat) (hdr : BitVec 256) (st : Status) (pr : BitVec 256) (x : Session) (s1 : State),
    s.Delivers t 0x21 3 hdr x s1 →
    (∀ r, s1.reqs.find? (fun r => r.tag = tag && r.work.stage = 14 && r.mirror = false && r.work.awaiting = some x.ident) = some r →
      r.covered = 0 →
      (st = .done → ∃ s', exec (.handoffAns t hdr tag st pr) s = .next s' ∧ s'.req r.fn r.tag = none ∧
        (x.ident, promHandle pr, r.fn, r.tag) ∈ s'.fab.handles) ∧
      (st ≠ .done → (handTargets r).drop (r.work.attempt + 1) = [] → ∃ s', exec (.handoffAns t hdr tag st pr) s = .next s' ∧
        s'.req r.fn r.tag = none ∧ s'.entry 0x311007 = s1.entry 0x311007 + 1) ∧
      (∀ i rest, st ≠ .done → (handTargets r).drop (r.work.attempt + 1) = i :: rest → s1.partner i = true →
        s1.req r.fn r.tag = some r → ∃ s' q, exec (.handoffAns t hdr tag st pr) s = .next s' ∧ s'.req r.fn r.tag = some q ∧
          q.work.stage = 14 ∧ q.work.awaiting = some i ∧ q.work.attempt = r.work.attempt + 1)) ∧
    (s1.reqs.find? (fun r => r.tag = tag && r.work.stage = 14 && r.mirror = false && r.work.awaiting = some x.ident) = none →
      (st = .done → (∀ h ∈ s1.fab.handles, h.1 ≠ x.ident ∨ h.2.1 ≠ promHandle pr) → exec (.handoffAns t hdr tag st pr) s =
        .next ((s1.emit (.fabric x.ident 0x22 [tag] (cancelWire tag))).count 0x311008 1)) ∧
      (st ≠ .done → exec (.handoffAns t hdr tag st pr) s = .next s1))) ∧
  (∀ (s : State) (t tag origin : Nat) (hdr : BitVec 256) (x : Session) (s1 : State), s.Delivers t 0x22 3 hdr x s1 →
    (∀ r, s1.reqs.find? (fun r => r.origin = x.idx + 1 && r.tag = tag) = some r → r.round = none →
      ∃ s', exec (.handoffCancel t hdr tag origin) s = .next s' ∧ s'.out = s1.out ∧ s'.seq = s1.seq ∧
        s'.reqs = s1.reqs.map fun q => if q.fn = r.fn ∧ q.tag = r.tag then { q with cancelling := true } else q) ∧
    (s1.reqs.find? (fun r => r.origin = x.idx + 1 && r.tag = tag) = none → exec (.handoffCancel t hdr tag origin) s = .next s1)) ∧
  (∀ (s : State) (t : Nat) (hdr : BitVec 256) (b : RecordBody) (x : Session) (s1 : State), s.Delivers t 0x23 3 hdr x s1 →
    ((∀ p ∈ b.streams, ∀ h ∈ s1.fab.handles, h.1 ≠ x.ident ∨ h.2.1 ≠ eHandle p.entry) →
      exec (.stepRecord t hdr b) s = .next s1) ∧
    (∀ p h f tag r, b.streams = [p] → s1.fab.handles.find? (fun h => h.1 = x.ident && h.2.1 = eHandle p.entry) = some h →
      h.2.2 = (f, tag) → r = recOut (recordFor f b [p]) → (s1.fn f).sbr.enable = true → (s1.fn f).sbr.ovf = [] →
      r.len < (s1.fn f).sbr.free → ∃ s' rest, exec (.stepRecord t hdr b) s = .next s' ∧
        s'.out = s1.out ++ sbrWrites f (s1.fn f).sbr r ++ rest ∧ (rest = [] ∨ rest = [.msix f 1]) ∧
        (eFinal p.entry = true → ∀ k ∈ s'.fab.handles, k.1 ≠ x.ident ∨ k.2.1 ≠ eHandle p.entry)))

/-! ### Mirror pairs -/

/-- R293, R294, R296: an offer of the lower module, or its acceptance, makes the pair FORMING when every condition holds, and has
no effect otherwise. A mirrored admission is answered with what this module's own admission of it gives; without an image of
equal digest, or outside PAIRED and SERVING, with a refusal. The primary's admission completes, or leaves nothing, with the
answer; without one in 3 µs it leaves nothing and the peer is lost. -/
def Obligations.PairAdmission : Prop :=
  (∀ (s : State) (t profile version origin period : Nat) (held : Bool) (hdr : BitVec 256) (x : Session) (s1 : State),
    s.Delivers t 0x40 1 hdr x s1 →
    (x.ident = s1.peer ∧ x.ident < s1.fab.ident ∧ canForm s1.pair.state = true ∧ s1.pairReady = true ∧
        profile = s1.entry 0x101002 ∧ s1.sameStore (version, origin, period, held) = true →
      ∃ s', exec (.pairOffer t hdr profile version origin period held) s = .next s' ∧ s'.pair.state = .forming ∧
        s'.pair.acceptedAt = some s1.now ∧ .fabric x.ident 0x41 [] acceptWire ∈ s'.out ∧ s'.reqs = s1.reqs) ∧
    (x.ident ≠ s1.peer ∨ s1.fab.ident ≤ x.ident ∨ canForm s1.pair.state = false ∨ s1.pairReady = false ∨
        profile ≠ s1.entry 0x101002 ∨ s1.sameStore (version, origin, period, held) = false →
      exec (.pairOffer t hdr profile version origin period held) s = .next s1)) ∧
  (∀ (s : State) (t : Nat) (hdr : BitVec 256) (x : Session) (s1 : State), s.Delivers t 0x41 1 hdr x s1 →
    (x.ident = s1.peer ∧ s1.fab.ident < s1.peer ∧ canForm s1.pair.state = true ∧ s1.pairReady = true →
      ∃ s', exec (.pairAccept t hdr) s = .next s' ∧ s'.pair.state = .forming ∧ s'.pair.acceptedAt = some s1.now ∧ s'.reqs = s1.reqs) ∧
    (x.ident ≠ s1.peer ∨ s1.peer ≤ s1.fab.ident ∨ canForm s1.pair.state = false ∨ s1.pairReady = false →
      exec (.pairAccept t hdr) s = .next s1)) ∧
  (∀ (s : State) (t : Nat) (hdr : BitVec 256) (b : PairAdmitBody) (x : Session) (s1 : State) (r : Request),
    s.Delivers t 0x42 1 hdr x s1 → r = mirrorRequest b →
    (s1.mod.op ≠ .serving ∨ s1.pair.state ≠ .paired ∨ x.ident ≠ s1.peer →
      exec (.pairAdmit t hdr b) s = .next (s1.emit (.fabric x.ident 0x43 [r.tag] (pairAnsWire r.tag 0x13)))) ∧
    (s1.mod.op = .serving → s1.pair.state = .paired → x.ident = s1.peer →
      (s1.digestHere r ≠ b.digest →
        exec (.pairAdmit t hdr b) s = .next (s1.emit (.fabric x.ident 0x43 [r.tag] (pairAnsWire r.tag 0x10)))) ∧
      (s1.digestHere r = b.digest → s1.req r.fn r.tag = none →
        ((s1.admitMirror r b).req r.fn r.tag = none →
          exec (.pairAdmit t hdr b) s = .next (s1.emit (.fabric x.ident 0x43 [r.tag] (pairAnsWire r.tag 0x10)))) ∧
        (((s1.admitMirror r b).req r.fn r.tag).isSome = true → b.fn < 1000 →
          exec (.pairAdmit t hdr b) s = .next ((s1.admitMirror r b).emit (.fabric x.ident 0x43 [r.tag] (pairAnsWire r.tag 0))))))) ∧
  (∀ (s : State) (t tag : Nat) (ok : Bool) (hdr : BitVec 256) (x : Session) (s1 : State), s.Delivers t 0x43 1 hdr x s1 →
    (x.ident ≠ s1.peer ∨ s1.reqs.find? (fun r => r.tag = tag && r.round.any fun d => !d.split) = none →
      exec (.pairAns t hdr tag ok) s = .next s1) ∧
    (∀ r, x.ident = s1.peer → s1.reqs.find? (fun r => r.tag = tag && r.round.any fun d => !d.split) = some r →
      (ok = false → ∃ s', exec (.pairAns t hdr tag ok) s = .next s' ∧ s'.req r.fn r.tag = none ∧
        (∀ c ∈ s'.adm.charges, ¬ (c.fn = r.fn ∧ c.tag = r.tag))) ∧
      (ok = true → r.gather = none → r.update = none → (r.lc = true → s1.lcClosed = false) → ∃ s' q, exec (.pairAns t hdr tag ok) s = .next s' ∧
        s'.req r.fn r.tag = some q ∧ q.round = none ∧ q.promise = r.promise ∧ (r.op ≠ 0x04 ∨ r.work.stage ≠ 8 → q = { r with round := none }) ∧
        s'.adm.charges = s1.adm.charges ∧ s'.entry 0x200020 = s1.entry 0x200020 + 1))) ∧
  (∀ (s : State) (t f tag : Nat) (r : Request) (d : Round), s.req f tag = some r → r.round = some d → d.split = false →
    (max s.now t < d.since + 3000 → exec (.pairAnsTimeout t f tag) s = .next (s.tick t)) ∧
    (d.since + 3000 ≤ max s.now t → ∃ s', exec (.pairAnsTimeout t f tag) s = .next s' ∧ s'.req f tag = none ∧
      (s.pair.state = .paired → s'.pair.state = .survivor ∧ s.peer ∈ s'.fab.alsoId)))

/-- R299, R300, R304, R305, R306: mirror messages, acknowledgements and heartbeats. The partner applies the state of a shadow
stream and acknowledges the step. A missing acknowledgement, or silence while a direct port is up, means that the peer is lost:
the survivor answers for it, owns what it mirrored, and says so. Without a direct port it probes first; an answer means SPLIT,
in which nothing stays mirrored. A module that is fenced by its peer's takeover stops serving what was covered. -/
def Obligations.PairLife : Prop :=
  (∀ (s : State) (t : Nat) (hdr : BitVec 256) (b : MirrorStepBody) (x : Session) (s1 : State), s.Delivers t 0x44 1 hdr x s1 →
    (s1.pair.state ≠ .paired ∨ x.ident ≠ s1.peer → exec (.mirrorStep t hdr b) s = .next s1) ∧
    (∀ m r s2, s1.pair.state = .paired → x.ident = s1.peer → b.entries = [m] → s2 = s1.mirrorSwitch b.switches →
      s2.reqAt m.slot = some r → r.mirror = true → r.covered = 1 → (∀ q ∈ s2.reqs, q.mirror = true → q.gen = true → q.promise.handle / 65536 = m.slot) →
      ∃ s' st, exec (.mirrorStep t hdr b) s = .next s' ∧ .fabric x.ident 0x45 [b.step] (mirrorAckWire b.step) ∈ s'.out ∧
        s'.pair.peerWritten = b.written ∧ s'.streamAt m.slot = some st ∧ st.toks = m.tokens ∧ st.held = m.held ∧
        (s'.slot m.slot).aut = m.aut ∧ (s'.slot m.slot).generated = bits m.entry.toNat 351 320)) ∧
  (∀ (s : State) (t step : Nat) (hdr : BitVec 256) (x : Session) (s1 : State), s.Delivers t 0x45 1 hdr x s1 →
    (x.ident = s1.peer → exec (.mirrorAck t hdr step) s = .next { s1 with pair := { s1.pair with acked := max s1.pair.acked step } }) ∧
    (x.ident ≠ s1.peer → exec (.mirrorAck t hdr step) s = .next s1)) ∧
  (∀ (s : State) (t step : Nat),
    (step ≤ s.pair.acked ∨ max s.now t < (step + 1) * 50000 + 8000 ∨ s.pair.state ≠ .paired →
      exec (.mirrorAckTimeout t step) s = .next (s.tick t)) ∧
    (s.pair.acked < step → (step + 1) * 50000 + 8000 ≤ max s.now t → s.pair.state = .paired →
      ∃ s', exec (.mirrorAckTimeout t step) s = .next s' ∧ s'.pair.state = .survivor ∧ s.peer ∈ s'.fab.alsoId ∧
        (∀ r ∈ s'.reqs, r.mirror = false ∧ r.covered = 0) ∧ s'.entry 0xA2000A = s.entry 0xA2000A + 1 ∧
        ∀ p ∈ s.fab.ports, p.inService = true →
          .fabric p.neighbour 0x47 [s.peer, min s.peer s.fab.ident, s.fab.ident]
            (takeoverWire s.peer (min s.peer s.fab.ident) s.fab.ident) ∈ s'.out)) ∧
  (∀ (s : State) (t : Nat), ∃ s', exec (.heartbeatSend t) s = .next s' ∧ s'.pair = s.pair ∧ s'.reqs = s.reqs ∧
    s'.out = s.out ++ s.directPorts.map fun p => .fabric s.peer 0x46 [p] (timeWire (max s.now t))) ∧
  (∀ (s : State) (t sent : Nat) (hdr : BitVec 256) (probe answer : Bool),
    (s.addressed hdr = true → hdrOk 0x46 1 hdr = true → hSrc hdr = s.peer →
      ∃ s', exec (.heartbeat t hdr sent probe answer) s = .next s' ∧ s'.pair.lastRx = max s.now t ∧ s'.pair.state = s.pair.state ∧
        s'.pair.answered = (s.pair.answered || (answer && s.pair.probing)) ∧
        s'.out = s.out ++ (if probe then [.fabric s.peer 0x46 [] (timeWire (max s.now t))] else [])) ∧
    (s.addressed hdr = false ∨ hdrOk 0x46 1 hdr = false ∨ hSrc hdr ≠ s.peer →
      exec (.heartbeat t hdr sent probe answer) s = .next (s.tick t).discard)) ∧
  (∀ (s : State) (t : Nat),
    (s.pair.state ≠ .paired ∨ s.pair.probing = true ∨ max s.now t < s.pair.lastRx + 8000 →
      exec (.peerSilenceTimeout t) s = .next (s.tick t)) ∧
    (s.pair.state = .paired → s.pair.probing = false → s.pair.lastRx + 8000 ≤ max s.now t →
      (s.directPorts ≠ [] → ∃ s', exec (.peerSilenceTimeout t) s = .next s' ∧ s'.pair.state = .survivor ∧
        s.peer ∈ s'.fab.alsoId ∧ ∀ r ∈ s'.reqs, r.mirror = false) ∧
      (s.directPorts = [] → ∃ s', exec (.peerSilenceTimeout t) s = .next s' ∧ s'.pair.state = .paired ∧ s'.pair.probing = true ∧
        s'.pair.probeAt = max s.now t ∧ s'.pair.answered = false ∧ s'.reqs = s.reqs)) ∧
    (s.pair.state ≠ .paired ∨ s.pair.probing = false → exec (.probeTimeout t) s = .next (s.tick t)) ∧
    (s.pair.state = .paired → s.pair.probing = true →
      (s.pair.answered = true → ∃ s', exec (.probeTimeout t) s = .next s' ∧ s'.pair.state = .split ∧
        ∀ r ∈ s'.reqs, r.mirror = false ∧ r.covered = 0) ∧
      (s.pair.answered = false → s.pair.probeAt + 12000 ≤ max s.now t → ∃ s', exec (.probeTimeout t) s = .next s' ∧
        s'.pair.state = .survivor ∧ s.peer ∈ s'.fab.alsoId))) ∧
  (∀ (s : State) (t lost survivor : Nat) (hdr : BitVec 256), s.addressed hdr = true → hdrOk 0x47 1 hdr = true →
    (lost = s.fab.ident → survivor ≠ s.fab.ident → survivor = s.peer → ∃ s', exec (.takeover t hdr lost survivor) s = .next s' ∧
      s'.pair.state = .forming ∧ (∀ r ∈ s'.reqs, r.covered = 0 ∧ ∃ q ∈ s.reqs, r = q ∨ r = { q with lostBy := 0 })) ∧
    (lost ≠ s.fab.ident ∨ survivor ≠ s.peer → exec (.takeover t hdr lost survivor) s = .next (((s.tick t).heard (hSrc hdr)).memberKept lost survivor)))

/-! ### SPDM -/

/-- R425, R426, R427: the SPDM responder on a function's mailbox (codes: log 80). BLANK answers only the first three requests,
RETIRED besides them only measurement 3, both with UnsupportedRequest otherwise; the connection goes through version,
capabilities and algorithms; a session is secured by FINISH, changes its keys, and ends; a measurement of index 3 is the raw
modes. A tenant's erase, on a secured session and of its own slot alone, destroys its key and its stored objects, and counts. -/
def Obligations.SpdmResponder : Prop :=
  ∀ (s : State) (t chan : Nat) (e : Bool) (s0 : State), s.spdmOn chan e = true →
    s0 = (if e then (s.tick t).control chan else s.tick t) →
    (∀ i, (∃ slot nonce sid good, i = .getDigests t chan e ∨ i = .getCertificate t chan e slot ∨
        i = .challenge t chan e nonce ∨ i = .keyExchange t chan e sid ∨ i = .finish t chan e sid good ∨
        i = .keyUpdate t chan e sid ∨ i = .spdmHeartbeat t chan e sid ∨ i = .endSession t chan e sid ∨
        (e = false ∧ i = .eraseTenantKey t chan sid slot)) →
      (s.sec.life = .blank ∨ s.sec.life = .retired → exec i s = .next (s0.emit (.spdm e chan 0x7F [7]))) ∧
      ((s.sec.life = .opened ∨ s.sec.life = .sealed) → s.spdmLevel chan e < 3 →
        exec i s = .next (s0.emit (.spdm e chan 0x7F [4])))) ∧
    (∃ s' v, exec (.getVersion t chan e) s = .next s' ∧ s'.out = s.out ++ [.spdm e chan 0x04 v] ∧
      s'.spdmLevel chan e = 1 ∧ ∀ x ∈ s'.sec.spdm, x.etnan ≠ e ∨ x.chan ≠ chan) ∧
    (1 ≤ s.spdmLevel chan e → ∃ s' v, exec (.getCapabilities t chan e) s = .next s' ∧
      s'.out = s.out ++ [.spdm e chan 0x61 v] ∧ 2 ≤ s'.spdmLevel chan e ∧ s'.sec.spdm = s.sec.spdm) ∧
    (∀ algs, 2 ≤ s.spdmLevel chan e → algs % 16 = 15 → ∃ s' v, exec (.negotiateAlgorithms t chan e algs) s = .next s' ∧
      s'.out = s.out ++ [.spdm e chan 0x63 v] ∧ s'.spdmLevel chan e = 3) ∧
    (3 ≤ s.spdmLevel chan e →
      (s.sec.life ≠ .blank → ∃ s' v, exec (.getMeasurements t chan e 3) s = .next s' ∧ s'.sec = s.sec ∧
        s'.out = s.out ++ [.spdm e chan 0x60 [s.sec.life.code + 2 ^ 8 * (DebugLevel.code s.sec.debug) + 2 ^ 16 * s.e6.toNat
          + 2 ^ 24 * s.power.state.code, v]]) ∧
      (∀ index, s.sec.life = .blank ∨ (s.sec.life = .retired ∧ index ≠ 3) →
        exec (.getMeasurements t chan e index) s = .next (s0.emit (.spdm e chan 0x7F [7])))) ∧
    (3 ≤ s.spdmLevel chan e → (s.sec.life = .opened ∨ s.sec.life = .sealed) →
      (∃ s' v, exec (.getDigests t chan e) s = .next s' ∧ s'.sec = s.sec ∧ s'.out = s.out ++ [.spdm e chan 0x01 v]) ∧
      (∃ s' v, exec (.getCertificate t chan e 0) s = .next s' ∧ s'.sec = s.sec ∧ s'.out = s.out ++ [.spdm e chan 0x02 v]) ∧
      (∀ nonce : BitVec 256, ∃ s' v, exec (.challenge t chan e nonce) s = .next s' ∧ s'.sec = s.sec ∧
        s'.out = s.out ++ [.spdm e chan 0x03 (0 :: nonce.toNat :: v)]) ∧
      (∀ sid, ∃ s' v, exec (.keyExchange t chan e sid) s = .next s' ∧ s'.spdmSession chan e sid false = true ∧
        s'.spdmSession chan e sid true = false ∧ s'.out = s.out ++ [.spdm e chan 0x64 v]) ∧
      (∀ sid, s.spdmSession chan e sid false = true →
        (∃ s' v, exec (.finish t chan e sid true) s = .next s' ∧ s'.spdmSession chan e sid true = true ∧
          s'.spdmSession chan e sid false = false ∧ s'.out = s.out ++ [.spdm e chan 0x65 v]) ∧
        (∃ s', exec (.finish t chan e sid false) s = .next s' ∧ s'.spdmSession chan e sid false = false ∧
          s'.spdmSession chan e sid true = false ∧ s'.out = s.out ++ [.spdm e chan 0x7F [6]])) ∧
      (∀ sid, s.spdmSession chan e sid true = true →
        (∃ s' v, exec (.keyUpdate t chan e sid) s = .next s' ∧ s'.spdmSession chan e sid true = true ∧
          s'.out = s.out ++ [.spdm e chan 0x69 v]) ∧
        (∃ s' v, exec (.spdmHeartbeat t chan e sid) s = .next s' ∧ s'.sec = s.sec ∧ s'.out = s.out ++ [.spdm e chan 0x68 v]) ∧
        (∃ s' v, exec (.endSession t chan e sid) s = .next s' ∧ s'.spdmSession chan e sid true = false ∧
          s'.out = s.out ++ [.spdm e chan 0x6C v]) ∧
        (e = false → ∀ slot, slot ≠ chan + 1 → exec (.eraseTenantKey t chan sid slot) s = .next (s0.emit (.spdm e chan 0x7F [1]))) ∧
        (e = false → ∃ s' v, exec (.eraseTenantKey t chan sid (chan + 1)) s = .next s' ∧ s'.out = s.out ++ [.spdm e chan 0x7E v] ∧
          getKey s'.sec.slots (chan + 1) = none ∧ lookupD s'.sec.erased (chan + 1) 0 = lookupD s.sec.erased (chan + 1) 0 + 1 ∧
          (∀ k, k ≠ chan + 1 → getKey s'.sec.slots k = getKey s.sec.slots k ∧ lookupD s'.sec.erased k 0 = lookupD s.sec.erased k 0) ∧
          (∀ x ∈ s'.flash.stored, x ∈ s.flash.stored ∧ x.fn ≠ chan) ∧
          (∀ x ∈ s.flash.stored, (∀ y ∈ s.flash.stored, y.fn = chan → y.id ≠ x.id) → x ∈ s'.flash.stored))))


/-! ### The object dictionary -/

/-- R335, R337, R346, R430: a READ answers the first part of the entry's value and keeps it as the session's snapshot, from
which later parts come; without the right role, access or offset it is refused. A read of the debug nonce draws it. DESCRIBE and
NEXT answer descriptors. ABORT discards what a segmented transfer holds, and so does 10 ms without a segment. -/
def Obligations.DictionaryReads : Prop :=
  (∀ (s : State) (t : Nat) (p : Pdu) (h : Nat) (bs : List Byte) (d : DictSession) (s1 : State), s.Serves t p h bs d s1 →
    (pOp h = 1 → ∀ r, odFind (pKey h) = some r →
      (r.acc = .wo ∨ d.role.code < r.rd.code → exec (.read t p) s = .next (s1.reply p h { status := .accessDenied })) ∧
      (r.acc ≠ .wo → r.rd.code ≤ d.role.code →
        (∀ v, pOffset h = 0 → pKey h ≠ 0x800006 → pKey h ≠ 0x900007 → s1.readValue d r (pKey h) = .ok v →
          exec (.read t p) s = .next ((s1.modDict d fun x =>
            { x with snapshot := some (pKey h, v, min v.length (lenLimit p.transport), s1.now) }).reply p h
            { first := true, last := decide (v.length ≤ lenLimit p.transport), total := v.length
              data := v.take (lenLimit p.transport) })) ∧
        (∀ v time, pOffset h ≠ 0 → pOffset h < v.length → d.snapshot = some (pKey h, v, pOffset h, time) →
          exec (.read t p) s = .next ((s1.modDict d fun x =>
            { x with snapshot := some (pKey h, v, min v.length (pOffset h + lenLimit p.transport), s1.now) }).reply p h
            { last := decide (v.length ≤ pOffset h + lenLimit p.transport), offset := pOffset h, total := v.length
              data := (v.drop (pOffset h)).take (lenLimit p.transport) })) ∧
        (pOffset h ≠ 0 → d.snapshot = none → exec (.read t p) s = .next (s1.reply p h { status := .stateConflict })) ∧
        (pOffset h = 0 → pKey h = 0x800006 → ∃ s', exec (.debugNonce t p) s = .next s' ∧ s'.freeCtr = s1.freeCtr + 1 ∧
          (∀ x ∈ s'.dict.sessions, x.is d = true → x.debugNonce = some (BitVec.ofNat 256 s1.drawn.toNat, s1.now)) ∧
          s'.sec = s1.sec ∧ s'.mod = s1.mod))) ∧
    (pOp h = 3 → ∀ r, odFind (pKey h) = some r →
      exec (.describe t p) s = .next (s1.reply p h { data := leBytes 8 r.descriptor })) ∧
    (pOp h = 4 → ∀ k r, odNext (pKey h) = some k → odFind k = some r →
      exec (.next t p) s = .next (s1.reply p h { key := some k, data := leBytes 8 r.descriptor })) ∧
    (pOp h = 1 ∨ pOp h = 3 → odFind (pKey h) = none →
      exec (if pOp h = 1 then .read t p else .describe t p) s = .next (s1.reply p h { status := .unknownObject })) ∧
    (pOp h = 5 → exec (.abort t p) s = .next ((s1.modDict d fun x => { x with snapshot := none, partialW := none }).reply p h {}))) ∧
  (∀ (s : State) (t : Nat) (transport : Transport) (channel station : Nat), ∃ s',
    exec (.segmentTimeout t transport channel station) s = .next s' ∧
    s' = { s with now := max s.now t, dict := { s.dict with sessions := s'.dict.sessions } } ∧
    s'.dict.sessions.length = s.dict.sessions.length ∧
    (∀ x ∈ s'.dict.sessions, x.transport = transport → x.channel = channel → x.station = station →
      (∀ y, x.snapshot = some y → max s.now t < y.2.2.2 + 10000000) ∧ (∀ y, x.partialW = some y → max s.now t < y.2.2.2 + 10000000)) ∧
    (∀ x ∈ s.dict.sessions, x.snapshot = none ∧ x.partialW = none ∨ x.transport ≠ transport ∨ x.channel ≠ channel ∨
      x.station ≠ station → x ∈ s'.dict.sessions))

/-- R338, R339, R340, R347, R352: a role is earned by the MAC of a fresh nonce under the role's key, within its ceiling, and
within 1 s; a failure is counted, and the eighth in a row locks proofs of the transport out for 1 s. A drop, or 10 s of silence on
CAN FD, ends it. Frames leave in order of arbitration: events, responses, the heartbeat. -/
def Obligations.RolesAndFrames : Prop :=
  (∀ (s : State) (t : Nat) (p : Pdu) (h : Nat) (bs : List Byte) (d : DictSession) (s1 : State), s.Serves t p h bs d s1 →
    (pOp h = 6 →
      (∀ role, Role.ofCode (ofLe bs) = some role → role ≠ .observer → (getKey s1.sec.roleKeys role.code).isSome = true →
        exec (.roleChallenge t p) s = .next (((s1.modDict d fun x =>
          { x with nonce := some (BitVec.ofNat 256 s1.drawn.toNat, role, s1.now) }).draw).reply p h
            { data := leBytes 32 (BitVec.ofNat 256 s1.drawn.toNat).toNat })) ∧
      (Role.ofCode (ofLe bs) = some .observer → exec (.roleChallenge t p) s = .next (s1.reply p h { status := .accessDenied })) ∧
      (Role.ofCode (ofLe bs) = none → exec (.roleChallenge t p) s = .next (s1.reply p h { status := .fieldReserved }))) ∧
    (pOp h = 7 →
      (∀ n role time key, d.nonce = some (n, role, time) → getKey s1.sec.roleKeys role.code = some key →
        s1.lockedOut p.transport = false → s1.now ≤ time + 1000000000 →
        role.code ≤ (s1.roleCeiling d.transport d.channel).code → hmac384 key (proofBytes n role d) = bs →
        exec (.roleProve t p) s = .next (((s1.modDict d fun x => { x with nonce := none, role := role }).setFails p.transport 0).reply
          p h {})) ∧
      (d.nonce = none ∨ s1.lockedOut p.transport = true →
        ∃ s', exec (.roleProve t p) s = .next s' ∧ s'.entry 0x103012 = s1.entry 0x103012 + 1 ∧
          (∀ x ∈ s'.dict.sessions, x.is d = true → x.nonce = none ∧ x.role = d.role) ∧ s'.sec = s1.sec ∧
          (s1.lockedOut p.transport = false → s1.failsOf p.transport = 7 → s'.lockedOut p.transport = true) ∧
          (s1.lockedOut p.transport = false → s1.failsOf p.transport < 7 →
            s'.failsOf p.transport = s1.failsOf p.transport + 1))) ∧
    (pOp h = 8 → exec (.roleDrop t p) s = .next ((s1.modDict d fun x => { x with role := .observer }).reply p h {}))) ∧
  (∀ (s : State) (t : Nat) (transport : Transport), ∃ s', exec (.roleLockoutExpiry t transport) s = .next s' ∧
    s' = { s with now := max s.now t, dict := { s.dict with lockout := s'.dict.lockout } } ∧
    (∀ x, x ∈ s'.dict.lockout ↔ x ∈ s.dict.lockout ∧ (x.1 ≠ transport ∨ max s.now t < x.2))) ∧
  (∀ (s : State) (t station : Nat), ∃ s', exec (.canSessionTimeout t station) s = .next s' ∧
    s' = { s with now := max s.now t, dict := { s.dict with sessions := s'.dict.sessions } } ∧
    (∀ x, x ∈ s'.dict.sessions ↔ x ∈ s.dict.sessions ∧
      (x.transport ≠ .can ∨ x.station ≠ station ∨ max s.now t < x.lastPdu + 10000000000))) ∧
  (∀ (s : State) (t : Nat) (f : CanFrame), s.mod.op ≠ .off → s.canOn = true → f ∈ s.dict.canQueue →
    (f.kind = 1 ∨ (f.kind = 2 ∧ ∀ g ∈ s.dict.canQueue, g.kind ≠ 1) ∨ (f.kind = 7 ∧ ∀ g ∈ s.dict.canQueue, g.kind ≠ 1 ∧ g.kind ≠ 2)) →
    ∃ s' g, exec (.canFrameSent t) s = .next s' ∧ g ∈ s.dict.canQueue ∧ g.kind = f.kind ∧
      s'.out = s.out ++ [.can (f.kind * 128 + s.inForce 0x103001) g.bytes] ∧ s'.sec = s.sec ∧ s'.reqs = s.reqs ∧ s'.mod = s.mod ∧
      (s.dict.canPending = [] → s.dict.canWaiting = [] → s'.dict.canQueue.length + 1 = s.dict.canQueue.length)) ∧
  (∀ (s : State) (t : Nat),
    (s.mod.op = .off ∨ s.canOn = false ∨ s.dict.canQueue = [] → exec (.canFrameSent t) s = .next (s.tick t)))

/-- R349: with a period other than 0, a heartbeat puts a frame of 8 bytes into the queue: the operating state, the power state, the
time state, the pair state, the lifecycle state, the debug level, two bytes 0; nothing else changes, and a heartbeat that has not
left yet is replaced. It leaves as a frame of kind 7 (RolesAndFrames). A period of 0 stops the heartbeat. The command is the moment at which
the period has passed. -/
def Obligations.HeartbeatFrame : Prop :=
  ∀ (s : State) (t : Nat),
    (s.entry 0x103002 ≠ 0 → s.canOn = true → s.hubRuns = true → exec (.canHeartbeat t) s = .next { s.tick t with dict := { s.dict with
      canQueue := takeKind 7 s.dict.canQueue ++ [{ kind := 7, bytes := [BitVec.ofNat 8 s.mod.op.code,
        BitVec.ofNat 8 s.power.state.code, BitVec.ofNat 8 s.ptp.state.code, BitVec.ofNat 8 s.pair.state.code,
        BitVec.ofNat 8 s.sec.life.code, BitVec.ofNat 8 (DebugLevel.code s.sec.debug), 0, 0] }] } }) ∧
    (s.entry 0x103002 = 0 ∨ s.canOn = false ∨ s.hubRuns = false → exec (.canHeartbeat t) s = .next (s.tick t))

/-- R354, R401, R416, R420, R421, R428, R429, R430, R431: the state commands, the lifecycle commands, standby and debug requests,
each in the states that allow it, else with STATE_CONFLICT. The answer goes first; a start drops every request and
session. SEAL destroys the tenants' keys and RETIRE every key and every stored image; a token's grant needs its signer, serial
number, fresh nonce and time, and D3 in SEALED destroys the tenants' keys. -/
def Obligations.StateCommands : Prop :=
  ∀ (s : State) (t : Nat) (p : Pdu) (h : Nat) (d : DictSession) (s2 : State),
    (s.Writes t p h 0x102002 [1] [1] d s2 →
      ((s2.mod.op = .ready ∨ s2.mod.op = .draining) ∧ s2.sec.life ≠ .blank ∧ s2.sec.debug ≠ .d3 →
        exec (.serve t p) s = .next ((s2.reply p h {}).enterOp .serving)) ∧
      ((s2.mod.op ≠ .ready ∧ s2.mod.op ≠ .draining) ∨ s2.sec.life = .blank ∨ s2.sec.debug = .d3 →
        exec (.serve t p) s = .next (s2.reply p h { status := .stateConflict }))) ∧
    (s.Writes t p h 0x102002 [2] [2] d s2 →
      (s2.mod.op = .serving → exec (.drain t p) s = .next ((s2.reply p h {}).enterOp .draining)) ∧
      (s2.mod.op ≠ .serving → exec (.drain t p) s = .next (s2.reply p h { status := .stateConflict }))) ∧
    (s.Writes t p h 0x102002 [3] [3] d s2 →
      (s2.mod.op = .ready ∧ s2.noRequest = true ∧ s2.sec.debug ≠ .d3 → ∃ s' o, exec (.retain t p) s = .next s' ∧
        s'.mod.op = .retained ∧ s'.mod.hbmHeld = true ∧ s'.flash.clean = true ∧ s'.pins.pwrGood = false ∧ s'.power.state = .p3 ∧
        (s'.sec.debug = .d0 ∨ s'.sec.debug = .d1) ∧ s'.img = s2.img ∧ s'.pool = s2.pool ∧ s'.index = s2.index ∧
        s'.out = (s2.reply p h {}).out ++ o) ∧
      (s2.mod.op ≠ .ready ∨ s2.noRequest = false ∨ s2.sec.debug = .d3 →
        exec (.retain t p) s = .next (s2.reply p h { status := .stateConflict }))) ∧
    (s.Writes t p h 0x102002 [4] [4] d s2 →
      (s2.mod.op = .retained → ∃ s' o, exec (.resume t p) s = .next s' ∧ s'.mod.op = .starting ∧ s'.mod.phase = 1 ∧
        s'.mod.warm = (!s2.mod.forceCold && decide (s2.sec.debug ≠ .d3)) ∧ s'.mod.hbmRetained = (s'.mod.warm && s2.mod.hbmHeld) ∧
        s'.reqs = [] ∧ s'.dict.sessions = [] ∧ s'.sec.debug = .d0 ∧ s'.mod.startCount = s2.mod.startCount + 1 ∧
        s'.out = (s2.reply p h {}).out ++ o) ∧
      (s2.mod.op ≠ .retained → exec (.resume t p) s = .next (s2.reply p h { status := .stateConflict }))) ∧
    (s.Writes t p h 0x102002 [5] [5] d s2 →
      (d.role ≠ .custodian → exec (.restartWarm t p) s = .next (s2.reply p h { status := .accessDenied })) ∧
      (d.role = .custodian → (s2.mod.op = .ready ∨ s2.mod.op = .retained) ∧ s2.noRequest = true →
        ∃ s' o, exec (.restartWarm t p) s = .next s' ∧ s'.mod.op = .starting ∧ s'.mod.phase = 1 ∧
          s'.mod.warm = (!s2.mod.forceCold && decide (s2.sec.debug ≠ .d3)) ∧
          s'.mod.hbmRetained = (s'.mod.warm && (decide (s2.mod.op = .ready) || s2.mod.hbmHeld)) ∧ s'.reqs = [] ∧
          s'.out = (s2.reply p h {}).out ++ o)) ∧
    (s.Writes t p h 0x102002 [6] [6] d s2 → d.role = .custodian →
      (s2.mod.op = .dark ∨ ((s2.mod.op = .ready ∨ s2.mod.op = .retained) ∧ s2.noRequest = true) →
        ∃ s' o, exec (.restartCold t p) s = .next s' ∧ s'.mod.op = .starting ∧ s'.mod.phase = 1 ∧ s'.mod.warm = false ∧
          s'.mod.hbmRetained = false ∧ s'.mod.darkCold = decide (s2.mod.op = .dark) ∧ s'.reqs = [] ∧ s'.faults.fencedBlocks = [] ∧
          s'.faults.fencedCells = [] ∧ s'.faults.fencedDies = [] ∧ s'.out = (s2.reply p h {}).out ++ o) ∧
      (s2.mod.op = .serving ∨ s2.mod.op = .draining →
        exec (.restartCold t p) s = .next (s2.reply p h { status := .stateConflict }))) ∧
    (s.Writes t p h 0x900004 [4] [4] d s2 →
      ((s2.mod.op = .ready ∨ s2.mod.op = .retained ∨ s2.mod.op = .dark) ∧ s2.noRequest = true →
        ∃ s', exec (.standby t p) s = .next s' ∧ s'.mod.op = .off ∧ s'.power.state = .p4 ∧ s'.flash.clean = true ∧ s'.reqs = [] ∧
          s'.flash.stored = s2.flash.stored ∧ s'.sec.debug = .d0 ∧ s'.mod.baseHeld = false) ∧
      (s2.mod.op = .serving ∨ s2.mod.op = .draining ∨ s2.noRequest = false →
        exec (.standby t p) s = .next (s2.reply p h { status := .stateConflict }))) ∧
    (∀ signer, s.Writes t p h 0x800003 [3] [3] d s2 → s2.still = true → s2.sec.life = .blank →
      (signer = .manufacturing ∧ s2.sec.provToken ≠ [] → ∃ s', exec (.provision t p signer) s = .next s' ∧ s'.sec.life = .opened ∧
        s'.sec.identity = true ∧ s'.mod.op = .starting ∧ s'.mod.warm = false) ∧
      (signer ≠ .manufacturing ∨ s2.sec.provToken = [] →
        exec (.provision t p signer) s = .next (s2.reply p h { status := .accessDenied }))) ∧
    (s.Writes t p h 0x800003 [1] [1] d s2 →
      (s2.still = true → s2.sec.life = .opened → 0 < ownerKeys s2.sec.imageKeys → 0 < ownerKeys s2.sec.debugKeys →
        ∃ s', exec (.seal t p) s = .next s' ∧ s'.sec.life = .sealed ∧ (∀ f < 64, getKey s'.sec.slots (f + 1) = none) ∧
          getKey s'.sec.slots 0 = getKey s2.sec.slots 0 ∧ s'.sec.roleKeys = s2.sec.roleKeys ∧ s'.mod.op = .starting ∧
          s'.mod.warm = false) ∧
      (s2.still = false ∨ s2.sec.life ≠ .opened ∨ ownerKeys s2.sec.imageKeys = 0 ∨ ownerKeys s2.sec.debugKeys = 0 →
        exec (.seal t p) s = .next (s2.reply p h { status := .stateConflict }))) ∧
    (s.Writes t p h 0x800003 [2] [2] d s2 →
      (s2.still = true → (s2.sec.life = .opened ∨ s2.sec.life = .sealed) → ∃ s', exec (.retire t p) s = .next s' ∧
        s'.sec.life = .retired ∧ (∀ k < 65, getKey s'.sec.slots k = none) ∧ s'.sec.roleKeys = [] ∧ s'.flash.stored = [] ∧
        s'.flash.map = [] ∧ s'.mod.op = .starting ∧ s'.mod.warm = false) ∧
      (s2.still = false ∨ s2.sec.life = .blank ∨ s2.sec.life = .retired →
        exec (.retire t p) s = .next (s2.reply p h { status := .stateConflict }))) ∧
    (s.Writes t p h 0x800004 [0] [0] d s2 → ∃ s', exec (.debugEnd t p) s = .next s' ∧ s'.sec.debug = .d0 ∧
      (s2.sec.debug = .d3 → s'.mod.op = .starting ∧ s'.mod.warm = false) ∧ (s2.sec.debug ≠ .d3 → s'.mod = s2.mod ∧ s'.reqs = s2.reqs)) ∧
    (s.Writes t p h 0x800004 [1] [1] d s2 →
      (s2.sec.debug = .d0 → exec (.debugD1 t p) s = .next ((s2.setDebug .d1).reply p h {})) ∧
      (s2.sec.debug ≠ .d0 → exec (.debugD1 t p) s = .next (s2.reply p h {}))) ∧
    (∀ signer bs value n time, s.Writes t p h 0x800004 bs value d s2 → value.length = 4715 →
      ∀ part : Nat → Nat → Nat, (∀ a k, part a k = ofLe ((value.drop a).take k)) →
      part 1 7 = 0 → part 84 4 = 0 → s2.tokenSigner signer (part 80 4) = true → part 16 32 = s2.mod.serial.toNat →
      d.debugNonce = some (n, time) → n.toNat = part 48 32 → s2.now ≤ time + 10000000000 → s2.now < part 8 8 →
      (s2.power.state = .p0 ∨ s2.power.state = .p1 ∨ s2.power.state = .p2) →
      (part 0 1 = 2 → ∃ s', exec (.debugToken t p signer) s = .next s' ∧ s'.sec.debug = .d2 ∧ s'.sec.expiry = part 8 8 ∧
        s'.sec.slots = s2.sec.slots ∧ s'.reqs = s2.reqs) ∧
      (part 0 1 = 3 → s2.still = true → ∃ s', exec (.debugToken t p signer) s = .next s' ∧ s'.sec.debug = .d3 ∧
        s'.sec.expiry = part 8 8 ∧ (s2.sec.life = .sealed → ∀ f < 64, getKey s'.sec.slots (f + 1) = none))) ∧
    ((s.sec.debug = .d2 ∨ s.sec.debug = .d3) ∧ s.sec.expiry ≤ max s.now t → ∃ s', exec (.debugExpiry t) s = .next s' ∧
      s'.sec.debug = .d0 ∧ (s.sec.debug = .d3 → s'.mod.op = .starting ∧ s'.mod.warm = false)) ∧
    ((s.sec.debug = .d0 ∨ s.sec.debug = .d1 ∨ max s.now t < s.sec.expiry) → exec (.debugExpiry t) s = .next (s.tick t))

/-- R38, R99, R119, R308, R334, R362, R392, R396, R411, R417, R425: writes of entries. The value is stored, or the entry's own rule
refuses it without effect: the power cap, the sweep period and the shares against their tests, a glint of a working cell, recovery
data at its offset, a verified set, diagnostics of chosen dies, a key slot with its objects, a stored image, partner sessions. -/
def Obligations.EntryWrites : Prop :=
  ∀ (s : State) (t : Nat) (p : Pdu) (h key : Nat) (bs value : List Byte) (d : DictSession) (s2 : State),
    s.Writes t p h key bs value d s2 →
    (∀ r, odFind key = some r →
      (∀ st, s2.writeEntry d {} r key value = .error st → exec (.write t p) s = .next (s2.reply p h { status := st })) ∧
      (∀ s3 f, s2.writeEntry d {} r key value = .ok (s3, f) → exec (.write t p) s = .next (f (s3.reply p h {})))) ∧
    (key = 0x103002 →
      (ofLe value ≤ 10000 → exec (.write t p) s = .next ((s2.setEntry 0x103002 (ofLe value)).reply p h {})) ∧
      (10000 < ofLe value → exec (.write t p) s = .next (s2.reply p h { status := .fieldReserved }))) ∧
    (key = 0x900003 →
      (2600 ≤ ofLe value ∧ ofLe value ≤ 3200 →
        exec (.powerCap t p) s = .next ((s2.setEntry 0x900003 (ofLe value)).settlePower.reply p h {})) ∧
      (ofLe value < 2600 ∨ 3200 < ofLe value → exec (.powerCap t p) s = .next (s2.reply p h { status := .fieldReserved }))) ∧
    (key = 0x300001 → 8000 ≤ ofLe value → ofLe value ≤ 40000 →
      (s2.grouped = true → exec (.sweepPeriodWrite t p) s = .next (s2.reply p h { status := .stateConflict })) ∧
      (s2.grouped = false → s2.storePasses (s2.entry 0x601001) (ofLe value * 1000) = false →
        exec (.sweepPeriodWrite t p) s = .next (s2.reply p h { status := .refusedCapacity })) ∧
      (s2.grouped = false → s2.storePasses (s2.entry 0x601001) (ofLe value * 1000) = true →
        ∃ s', exec (.sweepPeriodWrite t p) s = .next s' ∧ s'.entry 0x300001 = ofLe value ∧
          (s2.scheduled = true → s'.sweep.segs = (s2.unbooked, s2.sweepAt s2.unbooked, ofLe value * 1000) :: s2.sweep.segs) ∧
          s'.sweep.bookings = s2.sweep.bookings ∧ s'.reqs = s2.reqs)) ∧
    (key = 0x601001 → ofLe value ≤ 48000 →
      (58980 < ofLe value + s2.entry 0x601002 + 1000 →
        exec (.sweepShareWrite t p) s = .next (s2.reply p h { status := .fieldReserved })) ∧
      (ofLe value + s2.entry 0x601002 + 1000 ≤ 58980 → s2.storePasses (ofLe value) s2.livePeriod = true →
        ({ s2 with adm := { s2.adm with bSweepTbl := ofLe value, bGen := s2.entry 0x601002 } } : State).ledgersHold = true →
        exec (.sweepShareWrite t p) s = .next ((s2.setEntry 0x601001 (ofLe value)).reply p h {}))) ∧
    (key = 0x601002 → 1000 ≤ ofLe value → ofLe value ≤ 56980 →
      (58980 < ofLe value + s2.entry 0x601001 + 1000 →
        exec (.generationShareWrite t p) s = .next (s2.reply p h { status := .fieldReserved })) ∧
      (ofLe value + s2.entry 0x601001 + 1000 ≤ 58980 →
        ({ s2 with adm := { s2.adm with bSweepTbl := s2.entry 0x601001, bGen := ofLe value } } : State).ledgersHold = true →
        exec (.generationShareWrite t p) s = .next ((s2.setEntry 0x601002 (ofLe value)).reply p h {}))) ∧
    (key = 0x702001 → ofLe value < 65536 →
      (cellAddrOk (ofLe value) = false → exec (.glintRequest t p) s = .next (s2.reply p h { status := .fieldReserved })) ∧
      (cellAddrOk (ofLe value) = true → (s2.blockFenced (cellBlock (ofLe value)) = true ∨ s2.cellDead (ofLe value) = true) →
        exec (.glintRequest t p) s = .next (s2.reply p h { status := .stateConflict })) ∧
      (cellAddrOk (ofLe value) = true → s2.blockFenced (cellBlock (ofLe value)) = false → s2.cellDead (ofLe value) = false →
        ∃ s', exec (.glintRequest t p) s = .next s' ∧ ofLe value ∈ s'.faults.suspects.cells ∧
          s'.faults.fencedCells = s2.faults.fencedCells ∧ s'.reqs = s2.reqs)) ∧
    (key = 0x620002 → ∃ s', exec (.recoveryData t p) s = .next s' ∧
      s'.entry 0x620001 = (s2.entry 0x620001 + value.length) % 2 ^ 32 ∧
      s'.mod.staged = s2.mod.staged.writeAll (s2.entry 0x620001) value ∧ s'.reqs = s2.reqs) ∧
    (key = 0x620003 → bs = value →
      (∀ signer ok sv fv, value = [1] → s2.mod.op = .dark →
        (s2.mod.staged.isEmpty = false ∧ s2.setValid { signer := signer, digestOk := ok, secVersion := sv, version := fv } = true →
          ∃ s', exec (.recoveryCommitVerify t p signer ok sv fv) s = .next s' ∧
            { signer := signer, digestOk := ok, secVersion := sv, version := fv } ∈ s'.mod.sets ∧ s'.mod.fuse = s2.mod.fuse) ∧
        (s2.mod.staged.isEmpty = true ∨ s2.setValid { signer := signer, digestOk := ok, secVersion := sv, version := fv } = false →
          exec (.recoveryCommitVerify t p signer ok sv fv) s = .next (s2.reply p h { status := .accessDenied }))) ∧
      (value = [2] → s2.mod.op = .dark → ∃ s', exec (.recoveryCommitErase t p) s = .next s' ∧
        (∀ k < 65, getKey s'.sec.slots k = none) ∧ s'.flash.stored = [] ∧ s'.flash.map = [] ∧ s'.mod.sets = s2.mod.sets) ∧
      (value = [2] → s2.mod.op ≠ .dark → exec (.recoveryCommitErase t p) s = .next (s2.reply p h { status := .stateConflict }))) ∧
    (key = 0x703001 → ∀ failing, s2.mod.op = .dark → ofLe value < 16 →
      exec (.diagnosticBist t p failing) s = .next (((failing.filter fun c => bistUnit c && decide
        (ofLe value / 2 ^ codeDie c % 2 = 1)).foldl State.bistFence s2).reply p h {})) ∧
    (∀ f, f < 64 → key = perFn 0x8010 f → ofLe value = 1 → ∃ s', exec (.eraseKeySlot t p) s = .next s' ∧
      getKey s'.sec.slots (f + 1) = none ∧ lookupD s'.sec.erased (f + 1) 0 = lookupD s2.sec.erased (f + 1) 0 + 1 ∧
      (∀ x ∈ s'.flash.stored, x ∈ s2.flash.stored ∧ x.fn ≠ f) ∧
      (∀ k, k ≠ f + 1 → getKey s'.sec.slots k = getKey s2.sec.slots k)) ∧
    (key = 0x613004 →
      (s2.flash.stored.any (·.id = ofLe value) = false →
        exec (.freeStoredImage t p) s = .next (s2.reply p h { status := .unknownObject })) ∧
      (s2.flash.stored.any (·.id = ofLe value) = true → s2.imageInUse (ofLe value) = true →
        exec (.freeStoredImage t p) s = .next (s2.reply p h { status := .stateConflict })) ∧
      (s2.flash.stored.any (·.id = ofLe value) = true → s2.imageInUse (ofLe value) = false →
        ∃ s', exec (.freeStoredImage t p) s = .next s' ∧
          (∀ x, x ∈ s'.flash.stored ↔ x ∈ s2.flash.stored ∧ x.id ≠ ofLe value) ∧ s'.img = s2.img)) ∧
    (key = 0xA02001 ∨ key = 0xA02002 → validIdent (ofLe value) = true →
      (key = 0xA02001 → ∃ s', exec (.openPartner t p) s = .next s' ∧ ofLe value ∈ s'.fab.pinned) ∧
      (key = 0xA02002 → ∃ s', exec (.closePartner t p) s = .next s' ∧ ofLe value ∉ s'.fab.pinned ∧
        s'.fab.sessions = s2.fab.sessions ∧ s'.reqs = s2.reqs)) ∧
    (key = 0xA02001 ∨ key = 0xA02002 → validIdent (ofLe value) = false →
      exec (if key = 0xA02001 then .openPartner t p else .closePartner t p) s = .next (s2.reply p h { status := .fieldReserved }))

/-! ### Supply, reset, starts -/

/-- R397, R399, R400, R401, R405, R406, R407, R412, R414, R421, R438, R441: what takes the rails off, what begins a start and what
each of its phases does, how it fails and falls back. The bus thresholds of a start are log 77. Readings are set, and each entry
into the high band or below 46 V is counted. -/
def Obligations.SupplyAndStarts : Prop :=
  (∀ (s : State) (t mv : Nat),
    (s.mod.op ≠ .off → exec (.powerApplied t mv) s = .next (s.tick t)) ∧
    (s.mod.op = .off → s.mod.heldReset = false → 44000 ≤ mv → mv ≤ 62000 → ∃ s', exec (.powerApplied t mv) s = .next s' ∧
      s'.StartBegins s (decide (s.entry 0x104006 = 1) && ((List.range 24).filter fun k => !s.faults.fencedStacks.contains k).all
        s.mod.trained.contains) ∧ s'.mod.warmFails = 0 ∧ s'.mod.coldFails = 0 ∧ s'.power.mv = mv ∧ s'.pins.thermTripN = true) ∧
    (s.mod.op = .off → (s.mod.heldReset = true ∨ mv < 44000 ∨ 62000 < mv) → ∃ s', exec (.powerApplied t mv) s = .next s' ∧
      s'.mod = s.mod ∧ s'.power.mv = mv ∧ s'.power.state = .p0 ∧ s'.pins.thermTripN = true) ∧
    (∃ s', exec (.modResetAssert t) s = .next s' ∧ s'.RailsOff s ∧ s'.mod.heldReset = true ∧ s'.mod.resets = s.mod.resets + 1 ∧
      s'.pins.thermTripN = true ∧ s'.out = s.out ∧ s'.flash.stored = s.flash.stored) ∧
    (∃ s', exec (.busOvervoltage t) s = .next s' ∧ s'.RailsOff s ∧ s'.power.mv = max s.power.mv 62001 ∧ s'.pins.alertN = false ∧
      s'.out = s.out ∧ s'.flash.stored = s.flash.stored) ∧
    (∃ s', exec (.busUndervoltage t) s = .next s' ∧ s'.RailsOff s ∧ s'.power.mv = min s.power.mv 39999 ∧ s'.pins.alertN = false ∧
      s'.out = s.out ∧ s'.flash.stored = s.flash.stored)) ∧
  (∀ (s : State) (t hot : Nat),
    (s.mod.op ≠ .off → exec (.modResetRelease t hot) s = .next { s.tick t with mod := { s.mod with heldReset := false } }) ∧
    (s.mod.op = .off → 100000 ≤ hot → exec (.modResetRelease t hot) s =
      .next { s.tick t with mod := { s.mod with heldReset := false }, pins := { s.pins with thermTripN := false } }) ∧
    (s.mod.op = .off → hot < 100000 → 44000 ≤ s.power.mv → s.power.mv ≤ 62000 → ∃ s', exec (.modResetRelease t hot) s = .next s' ∧
      s'.mod.heldReset = false ∧ s'.mod.warmFails = 0 ∧ s'.mod.coldFails = 0 ∧ s'.StartBegins s (decide (s.entry 0x104006 = 1) &&
        ((List.range 24).filter fun k => !s.faults.fencedStacks.contains k).all s.mod.trained.contains)) ∧
    (s.power.state = .p4 → s.mod.heldReset = false → 44000 ≤ s.power.mv → s.power.mv ≤ 62000 → s.canOn = true →
      ∃ s', exec (.p4WakeFrame t (0x180 + s.inForce 0x103001)) s = .next s' ∧ s'.StartBegins s (decide (s.entry 0x104006 = 1) &&
        ((List.range 24).filter fun k => !s.faults.fencedStacks.contains k).all s.mod.trained.contains) ∧ s'.power.state ≠ .p4) ∧
    (∀ ident, s.power.state ≠ .p4 ∨ s.mod.heldReset = true ∨ s.canOn = false ∨ ident ≠ 0x180 + s.inForce 0x103001 →
      exec (.p4WakeFrame t ident) s = .next (s.tick t))) ∧
  (∀ (s : State) (t mv : Nat),
    (∃ s', exec (.busHighBand t mv) s = .next s' ∧ s'.power.mv = mv ∧ s'.mod = s.mod ∧ s'.reqs = s.reqs ∧
      (s.mod.op ≠ .off → s'.power.high = true ∧ s'.power.sag = false ∧
        s'.entry 0x90000D = s.entry 0x90000D + (!s.power.high).toNat)) ∧
    (∃ s', exec (.busSag t mv) s = .next s' ∧ s'.power.mv = mv ∧ s'.mod = s.mod ∧ s'.reqs = s.reqs ∧
      (s.mod.op ≠ .off → s'.power.sag = true ∧ s'.power.high = false ∧ s'.entry 0x90000A = s.entry 0x90000A + (!s.power.sag).toNat)) ∧
    (∃ s', exec (.busHighBandExit t mv) s = .next s' ∧ s'.power =
      { s.power with mv := mv, high := decide (59500 < mv), sag := decide (mv < 46000) } ∧ s'.mod = s.mod ∧ s'.reqs = s.reqs ∧ s'.dict = s.dict) ∧
    (∃ s', exec (.busSagEnd t mv) s = .next s' ∧ s'.power =
      { s.power with mv := mv, high := decide (59500 < mv), sag := decide (mv < 46000) } ∧ s'.mod = s.mod ∧ s'.reqs = s.reqs ∧ s'.dict = s.dict)) ∧
  (∀ (s : State) (t slot : Nat) (failing bad : List Nat),
    (s.mod.op ≠ .starting → exec (.startPhaseDone t slot failing bad) s = .next (s.tick t) ∧
      ∀ reason, exec (.startFailed t reason) s = .next (s.tick t)) ∧
    (s.mod.op = .starting → ∃ s', exec (.startPhaseDone t slot failing bad) s = .next s' ∧
      (s.mod.phase = 1 → s'.mod.phase = 2 ∧ s'.pins.pwrGood = true) ∧
      (s.mod.phase = 2 → ∀ i, s.sec.life ≠ .retired → s.pickSet = some i → s'.mod.phase = (if s.mod.warm then 4 else 3) ∧
        s'.mod.running = i ∧ s'.mod.slot = slot % 64 ∧ s'.sec.kek = true ∧ s'.entry 0x101002 = s.entry 0x101001 ∧
        s'.fab.ident = s.entry 0xA00001) ∧
      (s.mod.phase = 2 → s.sec.life = .retired → s'.mod.op = .dark ∧ s'.sec.kek = true) ∧
      (s.mod.phase = 3 → s'.mod.phase = 4 ∧ s'.mod.op = .starting) ∧
      (s.mod.phase = 4 → failing = [] → s.diesLost = false → s'.mod.phase = 5 ∧ s'.mod.trained =
        (List.range 24).filter fun k => !s.faults.fencedStacks.contains k) ∧
      (s.mod.phase = 5 → s'.mod.phase = 6 ∧ s'.entry 0x61000A = (if s.mod.warm && s.flash.clean then 2 else 1)) ∧
      (s.mod.phase = 6 → s'.mod.phase = 7 ∧ ∀ m ∈ s'.img.models, m ∈ s.img.models ∧ m.imageId ∉ bad) ∧
      (s.mod.phase = 7 → s'.mod.phase = 8 ∧
        s'.mod.fuse = max s.mod.fuse ((s.mod.sets[s.mod.running]?).elim 0 (·.secVersion))) ∧
      (s.mod.phase = 8 → s'.mod.phase = 0 ∧ s'.mod.warmFails = 0 ∧ s'.mod.coldFails = 0 ∧
        s'.mod.op = (if s.inForce 0x102003 = 1 ∧ s.sec.life ≠ .blank then .serving else .ready) ∧
        s'.entry 0x102004 = s.mod.warm.toNat ∧ s'.fab.sessions = [])) ∧
    (∀ reason, s.mod.op = .starting → ∃ s', exec (.startFailed t reason) s = .next s' ∧ s'.mod.lastReason = reason ∧
      s'.faults.records.length = min 65536 (s.faults.records.length + 1) ∧
      (s.mod.darkCold = true → s'.mod.op = .dark) ∧
      (s.mod.darkCold = false → s.mod.warm = true → s.mod.warmFails ≠ 2 → s'.StartBegins s true ∧
        s'.mod.warmFails = s.mod.warmFails + 1) ∧
      (s.mod.darkCold = false → s.mod.warm = true → s.mod.warmFails = 2 → s'.StartBegins s false ∧ s'.mod.warmFails = 0) ∧
      (s.mod.darkCold = false → s.mod.warm = false → s.mod.coldFails = 1 → s'.mod.op = .dark ∧ s'.mod.coldFails = 2) ∧
      (s.mod.darkCold = false → s.mod.warm = false → s.mod.coldFails ≠ 1 → s'.StartBegins s false ∧
        s'.mod.coldFails = s.mod.coldFails + 1))) ∧
  (∀ (s : State) (t crossing : Nat) (request ack : Bool), ∃ s', exec (.crossingResync t crossing request ack) s = .next s' ∧
    (crossing % 8 ≠ 1 → crossing % 8 ≠ 3 → s' = { s with now := max s.now t, faults := { s.faults with resync := s'.faults.resync } }) ∧
    (crossing % 8 = 1 → (crossing, true) ∈ s.faults.resync → ack = true → (s.port (crossing / 32)).inService = true →
      (∀ f ∈ (s.port (crossing / 32)).replay, f.2 < 7) →
      s'.out = s.out ++ (s.port (crossing / 32)).replay.map fun f => .link (crossing / 32) 2 [f.1.toNat]) ∧
    (crossing % 8 = 3 → request = true → (∀ f ∈ s'.dict.canQueue, f.kind = 2 → f ∈ s.dict.canWaiting) ∧
      ∀ f ∈ s.dict.canQueue, f.kind = 1 → f.entry ∈ s'.dict.canPending ∨ ∃ g ∈ s'.dict.canQueue, g.kind = 1 ∧ g.entry = f.entry) ∧
    (∀ c b, c ≠ crossing → ((c, b) ∈ s'.faults.resync ↔ (c, b) ∈ s.faults.resync)) ∧
    ((crossing, true) ∈ s'.faults.resync ↔ request = true ∨ ((crossing, true) ∈ s.faults.resync ∧ ack = false)))

/-! ### Cadence, temperatures, coolant -/

/-- R16, R48, R374, R379, R414, R415, R418, R440, R441, R442, R447: the windows set each region's cadence, 0 for a fenced one; the
lowest below 1600 begins deep dimming, counted, and a double fault during a recovery; 1 ms without a handshake is P2. Sensors at
or above their warning are counted when they rise; 120 °C trips; coolant limits are counted; low flow and thermal shutdown end in
P4. PPS_OUT follows the second while time is held. -/
def Obligations.CadenceAndHeat : Prop :=
  (∀ (s : State) (t region cadence : Nat) (counts : List Nat),
    (sweeping s.mod.op = false → exec (.cadenceWindow t counts) s = .next (s.tick t) ∧
      exec (.droopDetect t region cadence) s = .next (s.tick t) ∧ exec (.idleEntry t) s = .next (s.tick t)) ∧
    (sweeping s.mod.op = true →
      (∃ s', exec (.cadenceWindow t counts) s = .next s' ∧ s'.reqs = s.reqs ∧ s'.sec = s.sec ∧
        s'.power.cadence = ((List.range 32).map fun r => if s.regionFenced r then 0 else min 2000 (counts.getD r 0)) ∧
        (1600 ≤ s'.lowCadence → s'.power.deepDim = false) ∧ (s'.lowCadence = 0 → s'.power.deepDim = s.power.deepDim) ∧
        (0 < s'.lowCadence → s'.lowCadence < 1600 → s'.power.deepDim = true) ∧
        (0 < s'.lowCadence → s'.lowCadence < 1600 → s.power.deepDim = false → s'.entry 0x90000B = s.entry 0x90000B + 1 ∧
          (max s.now t < s.faults.recoveryEnds ∨ s.step.lateNs ≠ 0 → s'.entry 0x701003 = s.entry 0x701003 + 1))) ∧
      (s.power.cadence.length = 32 → region < 32 → ∃ s', exec (.droopDetect t region cadence) s = .next s' ∧
        s'.power.cadence.getD region 0 = (if s.regionFenced region then 0 else min 2000 cadence) ∧
        (∀ r, r < 32 → r ≠ region → s'.power.cadence.getD r 0 =
          (if s.regionFenced r then 0 else min 2000 (s.power.cadence.getD r 0))) ∧ s'.reqs = s.reqs) ∧
      (∃ s', exec (.idleEntry t) s = .next s' ∧ s'.power.idle = true ∧ s'.power.state = .p2 ∧ s'.reqs = s.reqs ∧ s'.mod = s.mod))) ∧
  (∀ (s : State) (t : Nat) (compute hbmTemps flash : List Int) (hub : Int) (w : List Nat), w = warnings compute hub hbmTemps flash →
    (s.mod.op = .off → exec (.thermalSample t compute hub hbmTemps flash) s = .next (s.tick t)) ∧
    (s.mod.op ≠ .off →
      (hub < 120000 → (∀ x ∈ compute, x < 120000) → ∃ s', exec (.thermalSample t compute hub hbmTemps flash) s = .next s' ∧
        s'.power.junction = hottest (hub :: compute) ∧ s'.power.stackTemp = hottest hbmTemps ∧ s'.power.warned = w ∧
        s'.entry 0x90000C = s.entry 0x90000C + (w.filter fun i => !s.power.warned.contains i).length ∧
        (w ≠ [] → s'.pins.alertN = false) ∧ s'.mod = s.mod ∧ s'.reqs = s.reqs) ∧
      (120000 ≤ hub ∨ (∃ x ∈ compute, 120000 ≤ x) → ∃ s', exec (.thermalSample t compute hub hbmTemps flash) s = .next s' ∧
        s'.RailsOff s ∧ s'.pins.thermTripN = false ∧ s'.entry 0x900011 = s.entry 0x900011 + 1)) ∧
    ((∀ x ∈ compute, x < 100000) → hub < 100000 → (∀ x ∈ hbmTemps, x < 90000) → (∀ x ∈ flash, x < 80000) → w = []) ∧
    (100000 ≤ hub → 64 ∈ w)) ∧
  (∀ (s : State) (t : Nat),
    (s.mod.op = .off → exec (.hardwareTrip t) s = .next (s.tick t) ∧ exec (.thermalShutdown t) s = .next (s.tick t)) ∧
    (s.mod.op ≠ .off → (∃ s', exec (.hardwareTrip t) s = .next s' ∧ s'.RailsOff s ∧ s'.pins.thermTripN = false ∧
        s'.entry 0x900011 = s.entry 0x900011 + 1) ∧
      (∃ s', exec (.thermalShutdown t) s = .next s' ∧ s'.RailsOff s ∧ s'.power.state = .p4 ∧ s'.flash.clean = true)) ∧
    (∀ level, exec (.ppsOutPulse t level) s = .next { s.tick t with pins := { s.pins with
      ppsOut := level && s.timeHeld && decide (s.mod.op ≠ .off) } }) ∧
    (∀ hot : Int, s.mod.op ≠ .off → ∃ s', exec (.tempHistoryMinute t hot) s = .next s' ∧
      lookupD s'.flash.tempHistory (min 63 (hot / 2000).toNat) 0 = lookupD s.flash.tempHistory (min 63 (hot / 2000).toNat) 0 + 1 ∧
      (∀ b, b ≠ min 63 (hot / 2000).toNat → lookupD s'.flash.tempHistory b 0 = lookupD s.flash.tempHistory b 0) ∧
      s' = { s.tick t with flash := { s.flash with tempHistory := s'.flash.tempHistory } })) ∧
  (∀ (s : State) (t flow : Nat) (inlet : Int), s.mod.op ≠ .off → ∀ i, (i = .coolantWarning t flow inlet ∨
      i = .coolantRestored t flow inlet ∨ (i = .coolantLowFlow t flow ∧ inlet = s.power.inlet ∧ 3000 ≤ flow)) →
    ∃ s', exec i s = .next s' ∧ s'.power =
      { s.power with flow := flow, inlet := inlet, flowLow := decide (flow < 6000), inletHigh := decide (45000 < inlet) } ∧
      s'.entry 0x900010 = s.entry 0x900010 + (decide (flow < 6000) && !s.power.flowLow).toNat
        + (decide (45000 < inlet) && !s.power.inletHigh).toNat ∧
      (flow < 6000 ∨ 45000 < inlet → s'.pins.alertN = false) ∧ s'.mod = s.mod ∧ s'.reqs = s.reqs) ∧
  (∀ (s : State) (t flow : Nat), s.mod.op ≠ .off → flow < 3000 → ∃ s', exec (.coolantLowFlow t flow) s = .next s' ∧
    s'.RailsOff s ∧ s'.power.state = .p4)

/-! ### Faults -/

/-- R13, R73, R84, R88, R91, R268, R376, R377, R378, R380, R382, R384, R386, R387, R388, R389, R390, R393: what each detection does while the units run: it is
recorded and counted, the streams it hit are marked, the silicon behind a hanging cell, a block, a region or a die (E6) leaves
service, and the capacity is re-evaluated at the next boundary; a mismatch only makes its cell a suspect, unless a glint cleared
it within 1 s. What cannot be contained stops service with a cold start. A tile, a copy or an output that
fails its format check is recorded at its level. A glint's end fences, clears or tests again. -/
def Obligations.Detections : Prop :=
  (∀ (s : State) (t : Nat) (hits : List Hit), s.running = true →
    (∀ cell physical ballast c, residueOk c = false → cellAddrOk cell = true → s.blockFenced (cellBlock cell) = false →
      s.cellDead cell = false → ∃ s', exec (.residueMismatch t cell physical ballast ⟨c, hits⟩) s = .next s' ∧ s'.cells.residue = s.cells.residue + 1 ∧
        getKey s'.faults.transient cell = some (max s.now t) ∧ s.entry 0x700001 < s'.entry 0x700001 ∧
        ((s.tick t).mismatchAgain cell = false → cell ∈ s'.faults.suspects.cells ∧ s'.faults.fencedCells = s.faults.fencedCells) ∧
        ((s.tick t).mismatchAgain cell = true →
          s'.fenceWord (cellBlock cell) = s.fenceWord (cellBlock cell) ||| BitVec.ofNat 17 (2 ^ s.physOf cell)) ∧
        (ballast = true → s'.entry 0x701001 = s.entry 0x701001 ∧ s'.step.slices = s.step.slices) ∧
        (ballast = false → s'.entry 0x701001 = s.entry 0x701001 + 1 ∧
          ∀ st ∈ s'.seq.streams, (∃ h ∈ hits, h.fn = st.fn ∧ h.tag = st.tag) → st.recovered = true)) ∧
    (∀ cell, cellAddrOk cell = true → s.blockFenced (cellBlock cell) = false → s.cellDead cell = false →
      ∃ s', exec (.blockWatchdog t cell hits) s = .next s' ∧
        s'.fenceWord (cellBlock cell) = s.fenceWord (cellBlock cell) ||| BitVec.ofNat 17 (2 ^ s.physOf cell) ∧
        s'.entry 0x701001 = s.entry 0x701001 + 1 ∧ s'.faults.recoveryEnds = max s.now t + 50000 ∧
        (∀ st ∈ s'.seq.streams, (∃ h ∈ hits, h.fn = st.fn ∧ h.tag = st.tag) → st.recovered = true) ∧
        (s.physOf cell ≠ 16 → getKey s.faults.spareOf (cellBlock cell) = none →
          getKey s'.faults.spareOf (cellBlock cell) = some (cellNo cell) ∧ s'.adm = s.adm) ∧
        (s.physOf cell = 16 ∨ getKey s.faults.spareOf (cellBlock cell) ≠ none → s'.adm.reeval = true ∧ s'.adm.refuseLc = true)) ∧
    (∀ block, block < 768 → s.blockFenced block = false → ∃ s', exec (.stewardWatchdog t block hits) s = .next s' ∧
      s'.faults.fencedBlocks = s.faults.fencedBlocks ++ [block] ∧ s'.entry 0x701004 = s.entry 0x701004 + 1 ∧
      s'.entry 0x701001 = s.entry 0x701001 + 1 ∧ s'.adm.reeval = true ∧ s'.adm.refuseLc = true) ∧
    (∀ region, region < 32 → s.regionFenced region = false → ∃ s', exec (.stewardHeartbeatTimeout t region hits) s = .next s' ∧
      s'.faults.fencedRegions = s.faults.fencedRegions ++ [region] ∧ s'.entry 0x701005 = s.entry 0x701005 + 1 ∧
      s'.entry 0x701001 = s.entry 0x701001 + 1 ∧ s'.adm.reeval = true ∧ s'.adm.refuseLc = true) ∧
    (∀ die, die < 4 → s.e6 = true → die ∉ s.faults.fencedDies → ∃ s', exec (.dieBridgeWatchdog t die false hits) s = .next s' ∧
      s'.faults.fencedDies = s.faults.fencedDies ++ [die] ∧ s'.entry 0x701006 = s.entry 0x701006 + 1 ∧
      s'.entry 0x701001 = s.entry 0x701001 + 1 ∧ s'.adm.reeval = true) ∧
    (∀ die hub, die < 4 → s.e6 = false ∨ hub = true → sweeping s.mod.op = true →
      ∃ s', exec (.dieBridgeWatchdog t die hub hits) s = .next s' ∧ s'.StartBegins s false) ∧
    (∃ s', exec (.crossingWatchdog t 4 0 hits) s = .next s' ∧ s'.faults.timer = 1 - s.faults.timer ∧
      s'.entry 0x701009 = s.entry 0x701009 + 1 ∧ s'.reqs = s.reqs) ∧
    (s.faults.canDown = false → ∃ s', exec (.crossingWatchdog t 3 0 hits) s = .next s' ∧ s'.faults.canDown = true ∧
      s'.dict.canQueue = [] ∧ (∀ d ∈ s'.dict.sessions, d ∈ s.dict.sessions ∧ d.transport ≠ .can) ∧
      s'.entry 0x701009 = s.entry 0x701009 + 1) ∧
    (∀ k, k < 32 → ∃ s', exec (.crossingWatchdog t 2 k hits) s = .next s' ∧
      (∀ j < 4, 4 * k + j ∈ s'.flash.fencedTargets) ∧ s'.entry 0x701009 = s.entry 0x701009 + 1) ∧
    (∀ p l, l < 4 → ((s.port p).lanes.getD l {}).inService = true → ∃ s', exec (.crossingWatchdog t 1 (4 * p + l) hits) s = .next s' ∧
      ((s'.port p).lanes.getD l {}).inService = false ∧ s'.entry 0x701001 = s.entry 0x701001 + 1) ∧
    (∀ k, k < 24 → k ∉ s.faults.fencedStacks → ∃ s', exec (.crossingWatchdog t 0 k hits) s = .next s' ∧
      s'.faults.fencedStacks = s.faults.fencedStacks ++ [k] ∧ s'.adm.reeval = true ∧
      ∀ r ∈ s'.reqs, r.gran.hbm ≠ 0 → (∃ h ∈ hits, h.fn = r.fn ∧ h.tag = r.tag) → r.lostBy = 1) ∧
    (∀ stack channel object granules, stack < 24 → channel < 32 →
      (∃ s', exec (.hbmUncorrectable t stack channel 0 object false granules hits) s = .next s' ∧
        s'.entry 0x602101 = s.entry 0x602101 + 1 ∧ s'.adm.reeval = true ∧ s'.reqs = s.reqs) ∧
      (∀ m, s.model object = some m → ∃ s', exec (.hbmUncorrectable t stack channel 0 object true granules hits) s = .next s' ∧
        s'.entry 0x701003 = s.entry 0x701003 + 1 ∧
        (s.flash.stored.any (fun x => decide (x.id = m.imageId) && !x.damaged) = true → object ∈ s'.faults.stalled ∧ s'.reqs = s.reqs) ∧
        (s.flash.stored.any (fun x => decide (x.id = m.imageId) && !x.damaged) = false →
          ∀ r ∈ s'.reqs, r.gen = true → r.model = object → r.lostBy = 3)) ∧
      (∃ s', exec (.hbmUncorrectable t stack channel 1 object true granules hits) s = .next s' ∧ 64 ∈ s'.faults.stalled ∧
        s'.entry 0x701003 = s.entry 0x701003 + 1) ∧
      (∃ s', exec (.hbmUncorrectable t stack channel 2 object false granules hits) s = .next s' ∧
        ∀ x ∈ s'.pool.tables, x.current = true → x.desc.tableId = keyTable object → ∀ r ∈ x.rows, r.row = keyRow object →
          r.lost = true) ∧
      (∃ s', exec (.hbmUncorrectable t stack channel 3 object false granules hits) s = .next s' ∧
        ∀ r ∈ s'.reqs, r.gran.hbm ≠ 0 → (∃ h ∈ hits, h.fn = r.fn ∧ h.tag = r.tag) → r.lostBy = 1)) ∧
    (∀ block tile h body ps, block < 768 →
      (∀ o, loaderOk o = false → exec (.formatCheckFault t block (.loader tile o)) s =
        .next ((s.tick t).record 0x0C 1 1 1 block 0 .recovered tile)) ∧
      (copyOk h body = false → ∀ w : BitVec 128, w.toNat = h → exec (.formatCheckFault t block (.copy w body)) s =
        .next ((s.tick t).record 0x0C 2 1 2 (block / 24) 0 .recovered (h % 2 ^ 32))) ∧
      (partialsOk ps = false → exec (.formatCheckFault t block (.partials ps)) s =
        .next ((s.tick t).record 0x0C 1 5 1 block 0 .done 0)))) ∧
  (∀ (s : State) (t model : Nat), exec (.stripeRewriteDone t model) s =
    .next { s.tick t with faults := { s.faults with stalled := s.faults.stalled.filter (· ≠ model) } }) ∧
  (∀ (s : State) (t processor : Nat), s.hubRuns = true →
    exec (.hubSramError t true) s = .next ((s.tick t).record 0x12 s.pkgLevel 1 8 0 0 .recovered 0) ∧
    (∀ i, (i = .hubSramError t false ∨ (i = .processorFault t processor ∧ processor < 6)) →
      (sweeping s.mod.op = true → ∃ s', exec i s = .next s' ∧ s'.StartBegins s false) ∧
      (s.mod.op = .starting → exec i s = .next ((s.tick t).startFail 3)) ∧
      (s.mod.op = .dark ∨ s.mod.op = .retained → ∃ s', exec i s = .next s' ∧ s'.mod = s.mod ∧ s'.reqs = s.reqs ∧
        s'.entry 0x700001 = s.entry 0x700001 + 1))) ∧
  (∀ (s : State) (t : Nat) (os : List GlintOutcome),
    (s.faults.active = none → exec (.glintDone t os) s = .next (s.tick t)) ∧
    (∀ g a, s.faults.active = some g → a ∈ g.cells → s.cellDead a = false → s.blockFenced (cellBlock a) = false → cellAddrOk a = true →
      (∃ s', exec (.glintDone t [{ unit := a, differs := true, refsAgree := true }]) s = .next s' ∧ s'.faults.active = none ∧
        s'.fenceWord (cellBlock a) = s.fenceWord (cellBlock a) ||| BitVec.ofNat 17 (2 ^ s.physOf a) ∧
        s'.entry 0x70100C = s.entry 0x70100C + 1) ∧
      (∃ s', exec (.glintDone t [{ unit := a, differs := false, refsAgree := true }]) s = .next s' ∧ s'.faults.active = none ∧
        s'.faults.fencedCells = s.faults.fencedCells ∧ s'.entry 0x70100D = s.entry 0x70100D + 1) ∧
      (∀ d, ∃ s', exec (.glintDone t [{ unit := a, differs := d, refsAgree := false }]) s = .next s' ∧ s'.faults.active = none ∧
        a ∈ s'.faults.suspects.cells ∧ s'.faults.fencedCells = s.faults.fencedCells ∧
        (∀ r ∈ g.refs, r.unit = a → r.isLane = false → ∀ x ∈ [r.a, r.b], cellAddrOk x = true → s.cellDead x = false →
          s.blockFenced (cellBlock x) = false → x ∈ s'.faults.suspects.cells))) ∧
    (∀ g a, s.faults.active = some g → a ∈ g.lanes →
      ∃ s', exec (.glintDone t [{ unit := a, isLane := true, differs := true, refsAgree := true }]) s = .next s' ∧
        s'.laneOut a = true ∧ s'.entry 0x70100C = s.entry 0x70100C + 1))

/-! ### Flash media -/

/-- R141, R362, R365, R366, R368, R369, R371, R373, R374: reads are delivered or lost, and counted by channel; a failing target or
superblock leaves service and what stood on it is damaged or moves; a KEEP is stored under a free IMAGE_ID; a merge switches a
block's map entry; an erase counts a cycle; reloaded chunks are swept again. -/
def Obligations.FlashMedia : Prop :=
  (∀ (s : State) (t f tag ord channel : Nat) (passage : Bool) (r : Request), s.mod.op ≠ .off → channel < 32 → s.req f tag = some r →
    readsFor r passage = true → ord ∉ r.work.lostOrds →
    (∀ retried, (s.readFrom f tag).isSome = true → ∃ s', exec (.flashReadDone t f tag ord passage channel retried) s = .next s' ∧
      s'.req f tag = some { r with work := { r.work with readOrds := (ord :: r.work.readOrds).eraseDups } } ∧
      s'.entry ((if retried then 0x611101 else 0x611001) + channel)
        = s.entry ((if retried then 0x611101 else 0x611001) + channel) + 1 ∧ s'.flash = s.flash) ∧
    (∀ retried, s.readFrom f tag = none → ∃ s', exec (.flashReadDone t f tag ord passage channel retried) s = .next s' ∧
      s'.req f tag = some { r with work := { r.work with lostOrds := r.work.lostOrds ++ [ord] } }) ∧
    (ord ∉ r.work.readOrds → ∃ s', exec (.flashReadTimeout t f tag ord passage channel) s = .next s' ∧
      s'.req f tag = some { r with work := { r.work with lostOrds := r.work.lostOrds ++ [ord] } } ∧
      s'.entry (0x611201 + channel) = s.entry (0x611201 + channel) + 1 ∧ s'.flash.stored = s.flash.stored) ∧
    (ord ∈ r.work.readOrds → exec (.flashReadTimeout t f tag ord passage channel) s = .next (s.tick t))) ∧
  (∀ (s : State) (t target : Nat) (images : List Nat), s.running = true → target < 128 → target ∉ s.flash.fencedTargets →
    ∃ s', exec (.flashTargetFault t target images) s = .next s' ∧ s'.flash.fencedTargets = s.flash.fencedTargets ++ [target] ∧
      s'.entry 0x701001 = s.entry 0x701001 + 1 ∧ s'.adm.reeval = true ∧
      (∀ x ∈ s'.flash.stored, x.id ∈ images → s.residentCopy x.id = false → x.damaged = true)) ∧
  (∀ (s : State) (t sb : Nat), s.mod.op ≠ .off → sb < 325504 → sb ∉ s.flash.retired →
    (∃ s', exec (.flashProgramFail t sb) s = .next s' ∧ s'.flash.retired = s.flash.retired ++ [sb] ∧ sb ∉ s'.flash.erasing ∧
      s'.flash.stored = s.flash.stored ∧ s'.flash.clean = false) ∧
    ((∀ m ∈ s.flash.map, m.sb ≠ sb) → (∀ l ∈ s.flash.logs, l.2 ≠ sb) →
      (s.stillRead sb = false → ∃ s', exec (.superblockErase t sb) s = .next s' ∧
        lookupD s'.flash.cycles sb 0 = lookupD s.flash.cycles sb 0 + 1 ∧ sb ∉ s'.flash.erasing ∧
        (∀ k, k ≠ sb → lookupD s'.flash.cycles k 0 = lookupD s.flash.cycles k 0) ∧
        s'.flash.map.map (·.block) = s.flash.map.map (·.block) ∧
        ((∀ p ∈ s'.flash.cycles, p.2 ≤ 500) → s'.flash.map = s.flash.map ∧ ∀ m ∈ s'.flash.media, m.sb ≠ sb)) ∧
      (s.stillRead sb = true → exec (.superblockErase t sb) s = .next (s.tick t)))) ∧
  (∀ (s : State) (t f tag : Nat) (r : Request) (l : LoadWork), s.req f tag = some r → r.load = some l → l.keep = true →
    l.stored = false → ∃ s' x, exec (.flashWriteDone t f tag) s = .next s' ∧ s'.flash.stored = s.flash.stored ++ [x] ∧
      x.image = l.image ∧ x.fn = f ∧ s'.req f tag = some { r with load := some { l with stored := true, imageId := x.id } } ∧
      (getKey s'.sec.slots (f + 1)).isSome = true) ∧
  (∀ (s : State) (t logical fresh : Nat), s.mod.op ≠ .off → logical < partBlocks s.mod.part24 → fresh < 325504 →
    s.sbUsed.contains fresh = false → ∃ s', exec (.logSuperblockMerge t logical fresh) s = .next s' ∧
      s'.flash.map.map (·.block) = s.flash.map.map (·.block) ∧ (∀ m ∈ s'.flash.map, m.block = logical → m.sb = fresh) ∧
      (∀ m ∈ s.flash.map, m.block = logical → m.sb ∈ s'.flash.erasing ∨ m.sb ∈ s.flash.retired ∨
        sbTarget m.sb ∈ s.flash.fencedTargets) ∧ (∀ l ∈ s'.flash.logs, l ∈ s.flash.logs) ∧
      (∀ m, m.block ≠ logical → (m ∈ s'.flash.map ↔ m ∈ s.flash.map)) ∧ s'.entry 0x61000C = s.entry 0x61000C + 1) ∧
  (∀ (s : State) (t die : Nat),
    (die ∈ s.faults.fencedDies → ∃ s', exec (.sketchReloadDone t die) s = .next s' ∧
      (∀ l, l ∈ s'.sweep.unswept ↔ l ∈ s.sweep.unswept ∧ l / 8 ≠ die) ∧
      ∀ r ∈ s'.reqs, ∃ q ∈ s.reqs, r = q ∨ r = { q with withdrawn := true }) ∧
    (die ∉ s.faults.fencedDies → exec (.sketchReloadDone t die) s = .next (s.tick t)))

/-! ### The whole machine -/

/-- R285, R403, R419, R421: whatever command a step runs, in whatever state, time never goes back, no transition of the lifecycle
goes back, and the fused version never falls. -/
def Obligations.EveryStepGoesForward : Prop := ∀ s s' : State, Machine.step s = .next s' → s.Forward s'

/-- R86, R311, R322, R350, R411: every step keeps the canonical form of every addressed buffer (request windows, function scratch, the
stores of the memory tiers, staged recovery data) and the numbers of functions, ports and cadence regions. -/
def Obligations.EveryStepKeepsShape : Prop :=
  ∀ s s' : State, Machine.step s = .next s' → s.buffersOk ∧ s.shapeOk → s'.buffersOk ∧ s'.shapeOk
end

