-- ==== Sys2Proof/Laws/Memory.lean ====
section
/-!
SUPPORT. The laws of addressed buffers: a read after a write, and the canonical form, which every operation keeps.
-/
namespace Sys2Proof.Machine

/-! ### The canonical form -/

/-- A canonical form above a bound is one above every lower bound. -/
theorem Memory.wfFrom_mono {lo hi : Nat} (h : lo ≤ hi) : ∀ {m : Memory}, Memory.wfFrom hi m = true → Memory.wfFrom lo m = true
  | [], _ => rfl
  | (a, v) :: r, hm => by
    simp only [Memory.wfFrom, Bool.and_eq_true, decide_eq_true_eq] at hm ⊢
    exact ⟨⟨Nat.le_trans h hm.1.1, hm.1.2⟩, hm.2⟩

theorem Memory.write_wfFrom {lo a : Nat} (v : Byte) (h : lo ≤ a) :
    ∀ {m : Memory}, Memory.wfFrom lo m = true → Memory.wfFrom lo (Memory.write m a v) = true
  | [], _ => by
    unfold Memory.write
    split
    · rfl
    · simp_all [Memory.wfFrom]
  | (b, w) :: r, hm => by
    simp only [Memory.wfFrom, Bool.and_eq_true, decide_eq_true_eq] at hm
    unfold Memory.write
    split
    · next hab =>
      split
      · simp_all [Memory.wfFrom]
      · simp only [Memory.wfFrom, Bool.and_eq_true, decide_eq_true_eq]
        exact ⟨⟨h, by assumption⟩, ⟨hab, hm.1.2⟩, hm.2⟩
    · split
      · next hab =>
        split
        · exact Memory.wfFrom_mono (by omega) hm.2
        · simp only [Memory.wfFrom, Bool.and_eq_true, decide_eq_true_eq]
          exact ⟨⟨h, by assumption⟩, hab ▸ hm.2⟩
      · simp only [Memory.wfFrom, Bool.and_eq_true, decide_eq_true_eq]
        exact ⟨hm.1, Memory.write_wfFrom v (by omega) hm.2⟩

/-- A write keeps the canonical form. -/
theorem Memory.write_wf {m : Memory} (h : m.wf = true) (a : Nat) (v : Byte) : (m.write a v).wf = true :=
  Memory.write_wfFrom v (Nat.zero_le a) h

/-- A part of a canonical list is canonical. -/
theorem Memory.filter_wfFrom (p : Nat × Byte → Bool) :
    ∀ {m : Memory} {lo : Nat}, Memory.wfFrom lo m = true → Memory.wfFrom lo (m.filter p) = true
  | [], _, _ => rfl
  | (a, v) :: r, lo, hm => by
    simp only [Memory.wfFrom, Bool.and_eq_true, decide_eq_true_eq] at hm
    simp only [List.filter_cons]
    split
    · simp only [Memory.wfFrom, Bool.and_eq_true, decide_eq_true_eq]
      exact ⟨hm.1, Memory.filter_wfFrom p hm.2⟩
    · exact Memory.wfFrom_mono (Nat.le_succ_of_le hm.1.1) (Memory.filter_wfFrom p hm.2)

/-- A write of several bytes keeps the canonical form. -/
theorem Memory.writeAll_wf : ∀ (vs : List Byte) {m : Memory}, m.wf = true → ∀ a : Nat, (m.writeAll a vs).wf = true
  | [], _, h, _ => h
  | v :: vs, _, h, a => Memory.writeAll_wf vs (Memory.write_wf h a v) (a + 1)

/-! ### Reads -/

/-- An address below the canonical form's bound is not listed. -/
theorem Memory.read_below : ∀ {m : Memory} {lo a : Nat}, Memory.wfFrom lo m = true → a < lo → m.read a = 0
  | [], _, _, _, _ => rfl
  | (b, w) :: r, lo, a, hm, h => by
    simp only [Memory.wfFrom, Bool.and_eq_true, decide_eq_true_eq] at hm
    have hb : b ≠ a := by omega
    simp only [Memory.read, hb, if_false]
    exact Memory.read_below hm.2 (by omega)

/-- A read after a write of one byte, in a canonical buffer. -/
theorem Memory.read_write_from {v : Byte} :
    ∀ {m : Memory} {lo a : Nat}, Memory.wfFrom lo m = true → ∀ b : Nat,
      (Memory.write m a v).read b = if b = a then v else m.read b
  | [], _, a, _, b => by
    by_cases hv : v = 0#8 <;> by_cases hb : a = b <;> simp [Memory.write, Memory.read, hv, hb, eq_comm (a := b)]
  | (c, w) :: r, lo, a, hm, b => by
    simp only [Memory.wfFrom, Bool.and_eq_true, decide_eq_true_eq] at hm
    rcases Nat.lt_trichotomy a c with hac | hac | hac
    · by_cases hv : v = 0#8 <;> by_cases hb : a = b
      · subst hb
        have h1 : c ≠ a := by omega
        have h2 := Memory.read_below hm.2 (show a < c + 1 by omega)
        simp_all [Memory.write, Memory.read]
      · simp [Memory.write, hac, hv, Ne.symm hb]
      · subst hb; simp [Memory.write, Memory.read, hac, hv]
      · simp [Memory.write, Memory.read, hac, hv, hb, Ne.symm hb]
    · subst hac
      by_cases hv : v = 0#8 <;> by_cases hb : a = b
      · subst hb
        have h2 := Memory.read_below hm.2 (show a < a + 1 by omega)
        simp_all [Memory.write]
      · simp [Memory.write, Memory.read, hv, hb, Ne.symm hb]
      · subst hb; simp [Memory.write, Memory.read, hv]
      · simp [Memory.write, Memory.read, hv, hb, Ne.symm hb]
    · have h1 : ¬ a < c := by omega
      have h2 : a ≠ c := by omega
      by_cases hc : c = b
      · subst hc; simp [Memory.write, Memory.read, h1, h2, Ne.symm h2]
      · simp only [Memory.write, Memory.read, h1, h2, hc, if_false]
        exact Memory.read_write_from hm.2 b

/-- A read after a write of one byte. -/
theorem Memory.read_write {m : Memory} (h : m.wf = true) (a b : Nat) (v : Byte) :
    (m.write a v).read b = if b = a then v else m.read b := Memory.read_write_from h b

/-- A read after a write of several bytes: the byte written there, else what was there. -/
theorem Memory.read_writeAll : ∀ (vs : List Byte) {m : Memory}, m.wf = true → ∀ a b : Nat,
    (m.writeAll a vs).read b = if a ≤ b ∧ b < a + vs.length then vs.getD (b - a) 0 else m.read b
  | [], _, _, a, b => by
    have h : ¬ (a ≤ b ∧ b < a + ([] : List Byte).length) := by simp only [List.length_nil]; omega
    rw [if_neg h]; rfl
  | v :: vs, m, h, a, b => by
    have ih := Memory.read_writeAll vs (Memory.write_wf h a v) (a + 1) b
    simp only [Memory.writeAll, ih, Memory.read_write h, List.length_cons]
    by_cases h1 : a + 1 ≤ b ∧ b < a + 1 + vs.length
    · have h2 : a ≤ b ∧ b < a + (vs.length + 1) := by omega
      obtain ⟨k, hk⟩ : ∃ k, b - a = k + 1 := ⟨b - a - 1, by omega⟩
      have hk' : b - (a + 1) = k := by omega
      simp [h1, h2, hk, hk']
    · rw [if_neg h1]
      by_cases h2 : b = a
      · subst h2; simp
      · have h3 : ¬ (a ≤ b ∧ b < a + (vs.length + 1)) := by omega
        simp [h2, h3]

end Sys2Proof.Machine
end

