-- ==== Sys2Proof/Laws/State.lean ====
section
/-!
SUPPORT. What the shared operations leave alone: one lemma per operation and field of the state.
-/
namespace Sys2Proof.Machine

/-- A fold over functions that keep a projection keeps it. -/
theorem foldl_keeps {α β γ : Type} (p : β → γ) (f : β → α → β) (h : ∀ b a, p (f b a) = p b) (l : List α) (b : β) :
    p (l.foldl f b) = p b := by
  induction l generalizing b with
  | nil => rfl
  | cons a l ih => rw [List.foldl_cons, ih, h]

/-! ### State.tick -/

@[simp] theorem State.tick_pending (s : State) (t : Nat) : (s.tick t).pending = s.pending := rfl
@[simp] theorem State.tick_freeCtr (s : State) (t : Nat) : (s.tick t).freeCtr = s.freeCtr := rfl
@[simp] theorem State.tick_out (s : State) (t : Nat) : (s.tick t).out = s.out := rfl
@[simp] theorem State.tick_mod (s : State) (t : Nat) : (s.tick t).mod = s.mod := rfl
@[simp] theorem State.tick_dict (s : State) (t : Nat) : (s.tick t).dict = s.dict := rfl
@[simp] theorem State.tick_host (s : State) (t : Nat) : (s.tick t).host = s.host := rfl
@[simp] theorem State.tick_reqs (s : State) (t : Nat) : (s.tick t).reqs = s.reqs := rfl
@[simp] theorem State.tick_adm (s : State) (t : Nat) : (s.tick t).adm = s.adm := rfl
@[simp] theorem State.tick_pools (s : State) (t : Nat) : (s.tick t).pools = s.pools := rfl
@[simp] theorem State.tick_seq (s : State) (t : Nat) : (s.tick t).seq = s.seq := rfl
@[simp] theorem State.tick_step (s : State) (t : Nat) : (s.tick t).step = s.step := rfl
@[simp] theorem State.tick_cells (s : State) (t : Nat) : (s.tick t).cells = s.cells := rfl
@[simp] theorem State.tick_tiers (s : State) (t : Nat) : (s.tick t).tiers = s.tiers := rfl
@[simp] theorem State.tick_sweep (s : State) (t : Nat) : (s.tick t).sweep = s.sweep := rfl
@[simp] theorem State.tick_index (s : State) (t : Nat) : (s.tick t).index = s.index := rfl
@[simp] theorem State.tick_img (s : State) (t : Nat) : (s.tick t).img = s.img := rfl
@[simp] theorem State.tick_pool (s : State) (t : Nat) : (s.tick t).pool = s.pool := rfl
@[simp] theorem State.tick_fab (s : State) (t : Nat) : (s.tick t).fab = s.fab := rfl
@[simp] theorem State.tick_ptp (s : State) (t : Nat) : (s.tick t).ptp = s.ptp := rfl
@[simp] theorem State.tick_tx (s : State) (t : Nat) : (s.tick t).tx = s.tx := rfl
@[simp] theorem State.tick_pair (s : State) (t : Nat) : (s.tick t).pair = s.pair := rfl
@[simp] theorem State.tick_flash (s : State) (t : Nat) : (s.tick t).flash = s.flash := rfl
@[simp] theorem State.tick_faults (s : State) (t : Nat) : (s.tick t).faults = s.faults := rfl
@[simp] theorem State.tick_power (s : State) (t : Nat) : (s.tick t).power = s.power := rfl
@[simp] theorem State.tick_sec (s : State) (t : Nat) : (s.tick t).sec = s.sec := rfl
@[simp] theorem State.tick_pins (s : State) (t : Nat) : (s.tick t).pins = s.pins := rfl

/-! ### State.emit -/

@[simp] theorem State.emit_now (s : State) (o : Output) : (s.emit o).now = s.now := rfl
@[simp] theorem State.emit_pending (s : State) (o : Output) : (s.emit o).pending = s.pending := rfl
@[simp] theorem State.emit_freeCtr (s : State) (o : Output) : (s.emit o).freeCtr = s.freeCtr := rfl
@[simp] theorem State.emit_mod (s : State) (o : Output) : (s.emit o).mod = s.mod := rfl
@[simp] theorem State.emit_dict (s : State) (o : Output) : (s.emit o).dict = s.dict := rfl
@[simp] theorem State.emit_host (s : State) (o : Output) : (s.emit o).host = s.host := rfl
@[simp] theorem State.emit_reqs (s : State) (o : Output) : (s.emit o).reqs = s.reqs := rfl
@[simp] theorem State.emit_adm (s : State) (o : Output) : (s.emit o).adm = s.adm := rfl
@[simp] theorem State.emit_pools (s : State) (o : Output) : (s.emit o).pools = s.pools := rfl
@[simp] theorem State.emit_seq (s : State) (o : Output) : (s.emit o).seq = s.seq := rfl
@[simp] theorem State.emit_step (s : State) (o : Output) : (s.emit o).step = s.step := rfl
@[simp] theorem State.emit_cells (s : State) (o : Output) : (s.emit o).cells = s.cells := rfl
@[simp] theorem State.emit_tiers (s : State) (o : Output) : (s.emit o).tiers = s.tiers := rfl
@[simp] theorem State.emit_sweep (s : State) (o : Output) : (s.emit o).sweep = s.sweep := rfl
@[simp] theorem State.emit_index (s : State) (o : Output) : (s.emit o).index = s.index := rfl
@[simp] theorem State.emit_img (s : State) (o : Output) : (s.emit o).img = s.img := rfl
@[simp] theorem State.emit_pool (s : State) (o : Output) : (s.emit o).pool = s.pool := rfl
@[simp] theorem State.emit_fab (s : State) (o : Output) : (s.emit o).fab = s.fab := rfl
@[simp] theorem State.emit_ptp (s : State) (o : Output) : (s.emit o).ptp = s.ptp := rfl
@[simp] theorem State.emit_tx (s : State) (o : Output) : (s.emit o).tx = s.transport msgClass o := rfl
@[simp] theorem State.transport_hostWrite (s : State) (c : Nat → Nat) (f a l v : Nat) : s.transport c (.hostWrite f a l v) = s.tx := rfl
@[simp] theorem State.transport_msix (s : State) (c : Nat → Nat) (f v : Nat) : s.transport c (.msix f v) = s.tx := rfl
@[simp] theorem State.transport_can (s : State) (c : Nat → Nat) (i : Nat) (b : List Byte) : s.transport c (.can i b) = s.tx := rfl
@[simp] theorem State.transport_link (s : State) (c : Nat → Nat) (p k : Nat) (v : List Nat) : s.transport c (.link p k v) = s.tx := rfl
@[simp] theorem State.emit_pair (s : State) (o : Output) : (s.emit o).pair = s.pair := rfl
@[simp] theorem State.emit_flash (s : State) (o : Output) : (s.emit o).flash = s.flash := rfl
@[simp] theorem State.emit_faults (s : State) (o : Output) : (s.emit o).faults = s.faults := rfl
@[simp] theorem State.emit_power (s : State) (o : Output) : (s.emit o).power = s.power := rfl
@[simp] theorem State.emit_sec (s : State) (o : Output) : (s.emit o).sec = s.sec := rfl
@[simp] theorem State.emit_pins (s : State) (o : Output) : (s.emit o).pins = s.pins := rfl

/-! ### State.draw -/

@[simp] theorem State.draw_now (s : State) : (s.draw).now = s.now := rfl
@[simp] theorem State.draw_pending (s : State) : (s.draw).pending = s.pending := rfl
@[simp] theorem State.draw_out (s : State) : (s.draw).out = s.out := rfl
@[simp] theorem State.draw_mod (s : State) : (s.draw).mod = s.mod := rfl
@[simp] theorem State.draw_dict (s : State) : (s.draw).dict = s.dict := rfl
@[simp] theorem State.draw_host (s : State) : (s.draw).host = s.host := rfl
@[simp] theorem State.draw_reqs (s : State) : (s.draw).reqs = s.reqs := rfl
@[simp] theorem State.draw_adm (s : State) : (s.draw).adm = s.adm := rfl
@[simp] theorem State.draw_pools (s : State) : (s.draw).pools = s.pools := rfl
@[simp] theorem State.draw_seq (s : State) : (s.draw).seq = s.seq := rfl
@[simp] theorem State.draw_step (s : State) : (s.draw).step = s.step := rfl
@[simp] theorem State.draw_cells (s : State) : (s.draw).cells = s.cells := rfl
@[simp] theorem State.draw_tiers (s : State) : (s.draw).tiers = s.tiers := rfl
@[simp] theorem State.draw_sweep (s : State) : (s.draw).sweep = s.sweep := rfl
@[simp] theorem State.draw_index (s : State) : (s.draw).index = s.index := rfl
@[simp] theorem State.draw_img (s : State) : (s.draw).img = s.img := rfl
@[simp] theorem State.draw_pool (s : State) : (s.draw).pool = s.pool := rfl
@[simp] theorem State.draw_fab (s : State) : (s.draw).fab = s.fab := rfl
@[simp] theorem State.draw_ptp (s : State) : (s.draw).ptp = s.ptp := rfl
@[simp] theorem State.draw_tx (s : State) : (s.draw).tx = s.tx := rfl
@[simp] theorem State.draw_pair (s : State) : (s.draw).pair = s.pair := rfl
@[simp] theorem State.draw_flash (s : State) : (s.draw).flash = s.flash := rfl
@[simp] theorem State.draw_faults (s : State) : (s.draw).faults = s.faults := rfl
@[simp] theorem State.draw_power (s : State) : (s.draw).power = s.power := rfl
@[simp] theorem State.draw_sec (s : State) : (s.draw).sec = s.sec := rfl
@[simp] theorem State.draw_pins (s : State) : (s.draw).pins = s.pins := rfl

/-! ### State.setEntry -/

@[simp] theorem State.setEntry_now (s : State) (k v : Nat) : (s.setEntry k v).now = s.now := rfl
@[simp] theorem State.setEntry_pending (s : State) (k v : Nat) : (s.setEntry k v).pending = s.pending := rfl
@[simp] theorem State.setEntry_freeCtr (s : State) (k v : Nat) : (s.setEntry k v).freeCtr = s.freeCtr := rfl
@[simp] theorem State.setEntry_out (s : State) (k v : Nat) : (s.setEntry k v).out = s.out := rfl
@[simp] theorem State.setEntry_mod (s : State) (k v : Nat) : (s.setEntry k v).mod = s.mod := rfl
@[simp] theorem State.setEntry_host (s : State) (k v : Nat) : (s.setEntry k v).host = s.host := rfl
@[simp] theorem State.setEntry_reqs (s : State) (k v : Nat) : (s.setEntry k v).reqs = s.reqs := rfl
@[simp] theorem State.setEntry_adm (s : State) (k v : Nat) : (s.setEntry k v).adm = s.adm := rfl
@[simp] theorem State.setEntry_pools (s : State) (k v : Nat) : (s.setEntry k v).pools = s.pools := rfl
@[simp] theorem State.setEntry_seq (s : State) (k v : Nat) : (s.setEntry k v).seq = s.seq := rfl
@[simp] theorem State.setEntry_step (s : State) (k v : Nat) : (s.setEntry k v).step = s.step := rfl
@[simp] theorem State.setEntry_cells (s : State) (k v : Nat) : (s.setEntry k v).cells = s.cells := rfl
@[simp] theorem State.setEntry_tiers (s : State) (k v : Nat) : (s.setEntry k v).tiers = s.tiers := rfl
@[simp] theorem State.setEntry_sweep (s : State) (k v : Nat) : (s.setEntry k v).sweep = s.sweep := rfl
@[simp] theorem State.setEntry_index (s : State) (k v : Nat) : (s.setEntry k v).index = s.index := rfl
@[simp] theorem State.setEntry_img (s : State) (k v : Nat) : (s.setEntry k v).img = s.img := rfl
@[simp] theorem State.setEntry_pool (s : State) (k v : Nat) : (s.setEntry k v).pool = s.pool := rfl
@[simp] theorem State.setEntry_fab (s : State) (k v : Nat) : (s.setEntry k v).fab = s.fab := rfl
@[simp] theorem State.setEntry_ptp (s : State) (k v : Nat) : (s.setEntry k v).ptp = s.ptp := rfl
@[simp] theorem State.setEntry_tx (s : State) (k v : Nat) : (s.setEntry k v).tx = s.tx := rfl
@[simp] theorem State.setEntry_pair (s : State) (k v : Nat) : (s.setEntry k v).pair = s.pair := rfl
@[simp] theorem State.setEntry_flash (s : State) (k v : Nat) : (s.setEntry k v).flash = s.flash := rfl
@[simp] theorem State.setEntry_faults (s : State) (k v : Nat) : (s.setEntry k v).faults = s.faults := rfl
@[simp] theorem State.setEntry_power (s : State) (k v : Nat) : (s.setEntry k v).power = s.power := rfl
@[simp] theorem State.setEntry_sec (s : State) (k v : Nat) : (s.setEntry k v).sec = s.sec := rfl
@[simp] theorem State.setEntry_pins (s : State) (k v : Nat) : (s.setEntry k v).pins = s.pins := rfl

/-! ### State.count -/

@[simp] theorem State.count_now (s : State) (k n : Nat) : (s.count k n).now = s.now := by unfold State.count; split <;> rfl
@[simp] theorem State.count_pending (s : State) (k n : Nat) : (s.count k n).pending = s.pending := by
  unfold State.count; split <;> rfl
@[simp] theorem State.count_freeCtr (s : State) (k n : Nat) : (s.count k n).freeCtr = s.freeCtr := by
  unfold State.count; split <;> rfl
@[simp] theorem State.count_out (s : State) (k n : Nat) : (s.count k n).out = s.out := by unfold State.count; split <;> rfl
@[simp] theorem State.count_mod (s : State) (k n : Nat) : (s.count k n).mod = s.mod := by unfold State.count; split <;> rfl
@[simp] theorem State.count_host (s : State) (k n : Nat) : (s.count k n).host = s.host := by unfold State.count; split <;> rfl
@[simp] theorem State.count_reqs (s : State) (k n : Nat) : (s.count k n).reqs = s.reqs := by unfold State.count; split <;> rfl
@[simp] theorem State.count_adm (s : State) (k n : Nat) : (s.count k n).adm = s.adm := by unfold State.count; split <;> rfl
@[simp] theorem State.count_pools (s : State) (k n : Nat) : (s.count k n).pools = s.pools := by
  unfold State.count; split <;> rfl
@[simp] theorem State.count_seq (s : State) (k n : Nat) : (s.count k n).seq = s.seq := by unfold State.count; split <;> rfl
@[simp] theorem State.count_step (s : State) (k n : Nat) : (s.count k n).step = s.step := by unfold State.count; split <;> rfl
@[simp] theorem State.count_cells (s : State) (k n : Nat) : (s.count k n).cells = s.cells := by
  unfold State.count; split <;> rfl
@[simp] theorem State.count_tiers (s : State) (k n : Nat) : (s.count k n).tiers = s.tiers := by
  unfold State.count; split <;> rfl
@[simp] theorem State.count_sweep (s : State) (k n : Nat) : (s.count k n).sweep = s.sweep := by
  unfold State.count; split <;> rfl
@[simp] theorem State.count_index (s : State) (k n : Nat) : (s.count k n).index = s.index := by
  unfold State.count; split <;> rfl
@[simp] theorem State.count_img (s : State) (k n : Nat) : (s.count k n).img = s.img := by unfold State.count; split <;> rfl
@[simp] theorem State.count_pool (s : State) (k n : Nat) : (s.count k n).pool = s.pool := by unfold State.count; split <;> rfl
@[simp] theorem State.count_fab (s : State) (k n : Nat) : (s.count k n).fab = s.fab := by unfold State.count; split <;> rfl
@[simp] theorem State.count_ptp (s : State) (k n : Nat) : (s.count k n).ptp = s.ptp := by unfold State.count; split <;> rfl
@[simp] theorem State.count_tx (s : State) (k n : Nat) : (s.count k n).tx = s.tx := by unfold State.count; split <;> rfl
@[simp] theorem State.count_pair (s : State) (k n : Nat) : (s.count k n).pair = s.pair := by unfold State.count; split <;> rfl
@[simp] theorem State.count_flash (s : State) (k n : Nat) : (s.count k n).flash = s.flash := by
  unfold State.count; split <;> rfl
@[simp] theorem State.count_faults (s : State) (k n : Nat) : (s.count k n).faults = s.faults := by
  unfold State.count; split <;> rfl
@[simp] theorem State.count_power (s : State) (k n : Nat) : (s.count k n).power = s.power := by
  unfold State.count; split <;> rfl
@[simp] theorem State.count_sec (s : State) (k n : Nat) : (s.count k n).sec = s.sec := by unfold State.count; split <;> rfl
@[simp] theorem State.count_pins (s : State) (k n : Nat) : (s.count k n).pins = s.pins := by unfold State.count; split <;> rfl

/-! ### State.modFn -/

@[simp] theorem State.modFn_now (s : State) (f : Nat) (g : Fn → Fn) : (s.modFn f g).now = s.now := rfl
@[simp] theorem State.modFn_pending (s : State) (f : Nat) (g : Fn → Fn) : (s.modFn f g).pending = s.pending := rfl
@[simp] theorem State.modFn_freeCtr (s : State) (f : Nat) (g : Fn → Fn) : (s.modFn f g).freeCtr = s.freeCtr := rfl
@[simp] theorem State.modFn_out (s : State) (f : Nat) (g : Fn → Fn) : (s.modFn f g).out = s.out := rfl
@[simp] theorem State.modFn_mod (s : State) (f : Nat) (g : Fn → Fn) : (s.modFn f g).mod = s.mod := rfl
@[simp] theorem State.modFn_dict (s : State) (f : Nat) (g : Fn → Fn) : (s.modFn f g).dict = s.dict := rfl
@[simp] theorem State.modFn_reqs (s : State) (f : Nat) (g : Fn → Fn) : (s.modFn f g).reqs = s.reqs := rfl
@[simp] theorem State.modFn_adm (s : State) (f : Nat) (g : Fn → Fn) : (s.modFn f g).adm = s.adm := rfl
@[simp] theorem State.modFn_pools (s : State) (f : Nat) (g : Fn → Fn) : (s.modFn f g).pools = s.pools := rfl
@[simp] theorem State.modFn_seq (s : State) (f : Nat) (g : Fn → Fn) : (s.modFn f g).seq = s.seq := rfl
@[simp] theorem State.modFn_step (s : State) (f : Nat) (g : Fn → Fn) : (s.modFn f g).step = s.step := rfl
@[simp] theorem State.modFn_cells (s : State) (f : Nat) (g : Fn → Fn) : (s.modFn f g).cells = s.cells := rfl
@[simp] theorem State.modFn_tiers (s : State) (f : Nat) (g : Fn → Fn) : (s.modFn f g).tiers = s.tiers := rfl
@[simp] theorem State.modFn_sweep (s : State) (f : Nat) (g : Fn → Fn) : (s.modFn f g).sweep = s.sweep := rfl
@[simp] theorem State.modFn_index (s : State) (f : Nat) (g : Fn → Fn) : (s.modFn f g).index = s.index := rfl
@[simp] theorem State.modFn_img (s : State) (f : Nat) (g : Fn → Fn) : (s.modFn f g).img = s.img := rfl
@[simp] theorem State.modFn_pool (s : State) (f : Nat) (g : Fn → Fn) : (s.modFn f g).pool = s.pool := rfl
@[simp] theorem State.modFn_fab (s : State) (f : Nat) (g : Fn → Fn) : (s.modFn f g).fab = s.fab := rfl
@[simp] theorem State.modFn_ptp (s : State) (f : Nat) (g : Fn → Fn) : (s.modFn f g).ptp = s.ptp := rfl
@[simp] theorem State.modFn_tx (s : State) (f : Nat) (g : Fn → Fn) : (s.modFn f g).tx = s.tx := rfl
@[simp] theorem State.modFn_pair (s : State) (f : Nat) (g : Fn → Fn) : (s.modFn f g).pair = s.pair := rfl
@[simp] theorem State.modFn_flash (s : State) (f : Nat) (g : Fn → Fn) : (s.modFn f g).flash = s.flash := rfl
@[simp] theorem State.modFn_faults (s : State) (f : Nat) (g : Fn → Fn) : (s.modFn f g).faults = s.faults := rfl
@[simp] theorem State.modFn_power (s : State) (f : Nat) (g : Fn → Fn) : (s.modFn f g).power = s.power := rfl
@[simp] theorem State.modFn_sec (s : State) (f : Nat) (g : Fn → Fn) : (s.modFn f g).sec = s.sec := rfl
@[simp] theorem State.modFn_pins (s : State) (f : Nat) (g : Fn → Fn) : (s.modFn f g).pins = s.pins := rfl

/-! ### State.modReq -/

@[simp] theorem State.modReq_now (s : State) (f a : Nat) (g : Request → Request) : (s.modReq f a g).now = s.now := rfl
@[simp] theorem State.modReq_pending (s : State) (f a : Nat) (g : Request → Request) :
    (s.modReq f a g).pending = s.pending := rfl
@[simp] theorem State.modReq_freeCtr (s : State) (f a : Nat) (g : Request → Request) :
    (s.modReq f a g).freeCtr = s.freeCtr := rfl
@[simp] theorem State.modReq_out (s : State) (f a : Nat) (g : Request → Request) : (s.modReq f a g).out = s.out := rfl
@[simp] theorem State.modReq_mod (s : State) (f a : Nat) (g : Request → Request) : (s.modReq f a g).mod = s.mod := rfl
@[simp] theorem State.modReq_dict (s : State) (f a : Nat) (g : Request → Request) : (s.modReq f a g).dict = s.dict := rfl
@[simp] theorem State.modReq_host (s : State) (f a : Nat) (g : Request → Request) : (s.modReq f a g).host = s.host := rfl
@[simp] theorem State.modReq_adm (s : State) (f a : Nat) (g : Request → Request) : (s.modReq f a g).adm = s.adm := rfl
@[simp] theorem State.modReq_pools (s : State) (f a : Nat) (g : Request → Request) : (s.modReq f a g).pools = s.pools := rfl
@[simp] theorem State.modReq_seq (s : State) (f a : Nat) (g : Request → Request) : (s.modReq f a g).seq = s.seq := rfl
@[simp] theorem State.modReq_step (s : State) (f a : Nat) (g : Request → Request) : (s.modReq f a g).step = s.step := rfl
@[simp] theorem State.modReq_cells (s : State) (f a : Nat) (g : Request → Request) : (s.modReq f a g).cells = s.cells := rfl
@[simp] theorem State.modReq_tiers (s : State) (f a : Nat) (g : Request → Request) : (s.modReq f a g).tiers = s.tiers := rfl
@[simp] theorem State.modReq_sweep (s : State) (f a : Nat) (g : Request → Request) : (s.modReq f a g).sweep = s.sweep := rfl
@[simp] theorem State.modReq_index (s : State) (f a : Nat) (g : Request → Request) : (s.modReq f a g).index = s.index := rfl
@[simp] theorem State.modReq_img (s : State) (f a : Nat) (g : Request → Request) : (s.modReq f a g).img = s.img := rfl
@[simp] theorem State.modReq_pool (s : State) (f a : Nat) (g : Request → Request) : (s.modReq f a g).pool = s.pool := rfl
@[simp] theorem State.modReq_fab (s : State) (f a : Nat) (g : Request → Request) : (s.modReq f a g).fab = s.fab := rfl
@[simp] theorem State.modReq_ptp (s : State) (f a : Nat) (g : Request → Request) : (s.modReq f a g).ptp = s.ptp := rfl
@[simp] theorem State.modReq_tx (s : State) (f a : Nat) (g : Request → Request) : (s.modReq f a g).tx = s.tx := rfl
@[simp] theorem State.modReq_pair (s : State) (f a : Nat) (g : Request → Request) : (s.modReq f a g).pair = s.pair := rfl
@[simp] theorem State.modReq_flash (s : State) (f a : Nat) (g : Request → Request) : (s.modReq f a g).flash = s.flash := rfl
@[simp] theorem State.modReq_faults (s : State) (f a : Nat) (g : Request → Request) : (s.modReq f a g).faults = s.faults := rfl
@[simp] theorem State.modReq_power (s : State) (f a : Nat) (g : Request → Request) : (s.modReq f a g).power = s.power := rfl
@[simp] theorem State.modReq_sec (s : State) (f a : Nat) (g : Request → Request) : (s.modReq f a g).sec = s.sec := rfl
@[simp] theorem State.modReq_pins (s : State) (f a : Nat) (g : Request → Request) : (s.modReq f a g).pins = s.pins := rfl

/-! ### State.dropReq -/

@[simp] theorem State.dropReq_now (s : State) (f a : Nat) : (s.dropReq f a).now = s.now := rfl
@[simp] theorem State.dropReq_pending (s : State) (f a : Nat) : (s.dropReq f a).pending = s.pending := rfl
@[simp] theorem State.dropReq_freeCtr (s : State) (f a : Nat) : (s.dropReq f a).freeCtr = s.freeCtr := rfl
@[simp] theorem State.dropReq_out (s : State) (f a : Nat) : (s.dropReq f a).out = s.out := rfl
@[simp] theorem State.dropReq_mod (s : State) (f a : Nat) : (s.dropReq f a).mod = s.mod := rfl
@[simp] theorem State.dropReq_dict (s : State) (f a : Nat) : (s.dropReq f a).dict = s.dict := rfl
@[simp] theorem State.dropReq_host (s : State) (f a : Nat) : (s.dropReq f a).host = s.host := rfl
@[simp] theorem State.dropReq_adm (s : State) (f a : Nat) : (s.dropReq f a).adm = s.adm := rfl
@[simp] theorem State.dropReq_pools (s : State) (f a : Nat) : (s.dropReq f a).pools = s.pools := rfl
@[simp] theorem State.dropReq_seq (s : State) (f a : Nat) : (s.dropReq f a).seq = s.seq := rfl
@[simp] theorem State.dropReq_step (s : State) (f a : Nat) : (s.dropReq f a).step = s.step := rfl
@[simp] theorem State.dropReq_cells (s : State) (f a : Nat) : (s.dropReq f a).cells = s.cells := rfl
@[simp] theorem State.dropReq_tiers (s : State) (f a : Nat) : (s.dropReq f a).tiers = s.tiers := rfl
@[simp] theorem State.dropReq_sweep (s : State) (f a : Nat) : (s.dropReq f a).sweep = s.sweep := rfl
@[simp] theorem State.dropReq_index (s : State) (f a : Nat) : (s.dropReq f a).index = s.index := rfl
@[simp] theorem State.dropReq_img (s : State) (f a : Nat) : (s.dropReq f a).img = s.img := rfl
@[simp] theorem State.dropReq_pool (s : State) (f a : Nat) : (s.dropReq f a).pool = s.pool := rfl
@[simp] theorem State.dropReq_fab (s : State) (f a : Nat) : (s.dropReq f a).fab = s.fab := rfl
@[simp] theorem State.dropReq_ptp (s : State) (f a : Nat) : (s.dropReq f a).ptp = s.ptp := rfl
@[simp] theorem State.dropReq_tx (s : State) (f a : Nat) : (s.dropReq f a).tx = s.tx := rfl
@[simp] theorem State.dropReq_pair (s : State) (f a : Nat) : (s.dropReq f a).pair = s.pair := rfl
@[simp] theorem State.dropReq_flash (s : State) (f a : Nat) : (s.dropReq f a).flash = s.flash := rfl
@[simp] theorem State.dropReq_faults (s : State) (f a : Nat) : (s.dropReq f a).faults = s.faults := rfl
@[simp] theorem State.dropReq_power (s : State) (f a : Nat) : (s.dropReq f a).power = s.power := rfl
@[simp] theorem State.dropReq_sec (s : State) (f a : Nat) : (s.dropReq f a).sec = s.sec := rfl
@[simp] theorem State.dropReq_pins (s : State) (f a : Nat) : (s.dropReq f a).pins = s.pins := rfl

/-! ### State.modWork -/

@[simp] theorem State.modWork_now (s : State) (f a : Nat) (g : Work → Work) : (s.modWork f a g).now = s.now := rfl
@[simp] theorem State.modWork_pending (s : State) (f a : Nat) (g : Work → Work) : (s.modWork f a g).pending = s.pending := rfl
@[simp] theorem State.modWork_freeCtr (s : State) (f a : Nat) (g : Work → Work) : (s.modWork f a g).freeCtr = s.freeCtr := rfl
@[simp] theorem State.modWork_out (s : State) (f a : Nat) (g : Work → Work) : (s.modWork f a g).out = s.out := rfl
@[simp] theorem State.modWork_mod (s : State) (f a : Nat) (g : Work → Work) : (s.modWork f a g).mod = s.mod := rfl
@[simp] theorem State.modWork_dict (s : State) (f a : Nat) (g : Work → Work) : (s.modWork f a g).dict = s.dict := rfl
@[simp] theorem State.modWork_host (s : State) (f a : Nat) (g : Work → Work) : (s.modWork f a g).host = s.host := rfl
@[simp] theorem State.modWork_adm (s : State) (f a : Nat) (g : Work → Work) : (s.modWork f a g).adm = s.adm := rfl
@[simp] theorem State.modWork_pools (s : State) (f a : Nat) (g : Work → Work) : (s.modWork f a g).pools = s.pools := rfl
@[simp] theorem State.modWork_seq (s : State) (f a : Nat) (g : Work → Work) : (s.modWork f a g).seq = s.seq := rfl
@[simp] theorem State.modWork_step (s : State) (f a : Nat) (g : Work → Work) : (s.modWork f a g).step = s.step := rfl
@[simp] theorem State.modWork_cells (s : State) (f a : Nat) (g : Work → Work) : (s.modWork f a g).cells = s.cells := rfl
@[simp] theorem State.modWork_tiers (s : State) (f a : Nat) (g : Work → Work) : (s.modWork f a g).tiers = s.tiers := rfl
@[simp] theorem State.modWork_sweep (s : State) (f a : Nat) (g : Work → Work) : (s.modWork f a g).sweep = s.sweep := rfl
@[simp] theorem State.modWork_index (s : State) (f a : Nat) (g : Work → Work) : (s.modWork f a g).index = s.index := rfl
@[simp] theorem State.modWork_img (s : State) (f a : Nat) (g : Work → Work) : (s.modWork f a g).img = s.img := rfl
@[simp] theorem State.modWork_pool (s : State) (f a : Nat) (g : Work → Work) : (s.modWork f a g).pool = s.pool := rfl
@[simp] theorem State.modWork_fab (s : State) (f a : Nat) (g : Work → Work) : (s.modWork f a g).fab = s.fab := rfl
@[simp] theorem State.modWork_ptp (s : State) (f a : Nat) (g : Work → Work) : (s.modWork f a g).ptp = s.ptp := rfl
@[simp] theorem State.modWork_tx (s : State) (f a : Nat) (g : Work → Work) : (s.modWork f a g).tx = s.tx := rfl
@[simp] theorem State.modWork_pair (s : State) (f a : Nat) (g : Work → Work) : (s.modWork f a g).pair = s.pair := rfl
@[simp] theorem State.modWork_flash (s : State) (f a : Nat) (g : Work → Work) : (s.modWork f a g).flash = s.flash := rfl
@[simp] theorem State.modWork_faults (s : State) (f a : Nat) (g : Work → Work) : (s.modWork f a g).faults = s.faults := rfl
@[simp] theorem State.modWork_power (s : State) (f a : Nat) (g : Work → Work) : (s.modWork f a g).power = s.power := rfl
@[simp] theorem State.modWork_sec (s : State) (f a : Nat) (g : Work → Work) : (s.modWork f a g).sec = s.sec := rfl
@[simp] theorem State.modWork_pins (s : State) (f a : Nat) (g : Work → Work) : (s.modWork f a g).pins = s.pins := rfl

/-! ### State.modSlot -/

@[simp] theorem State.modSlot_now (s : State) (n : Nat) (g : SeqEntry → SeqEntry) : (s.modSlot n g).now = s.now := rfl
@[simp] theorem State.modSlot_pending (s : State) (n : Nat) (g : SeqEntry → SeqEntry) :
    (s.modSlot n g).pending = s.pending := rfl
@[simp] theorem State.modSlot_freeCtr (s : State) (n : Nat) (g : SeqEntry → SeqEntry) :
    (s.modSlot n g).freeCtr = s.freeCtr := rfl
@[simp] theorem State.modSlot_out (s : State) (n : Nat) (g : SeqEntry → SeqEntry) : (s.modSlot n g).out = s.out := rfl
@[simp] theorem State.modSlot_mod (s : State) (n : Nat) (g : SeqEntry → SeqEntry) : (s.modSlot n g).mod = s.mod := rfl
@[simp] theorem State.modSlot_dict (s : State) (n : Nat) (g : SeqEntry → SeqEntry) : (s.modSlot n g).dict = s.dict := rfl
@[simp] theorem State.modSlot_host (s : State) (n : Nat) (g : SeqEntry → SeqEntry) : (s.modSlot n g).host = s.host := rfl
@[simp] theorem State.modSlot_reqs (s : State) (n : Nat) (g : SeqEntry → SeqEntry) : (s.modSlot n g).reqs = s.reqs := rfl
@[simp] theorem State.modSlot_adm (s : State) (n : Nat) (g : SeqEntry → SeqEntry) : (s.modSlot n g).adm = s.adm := rfl
@[simp] theorem State.modSlot_pools (s : State) (n : Nat) (g : SeqEntry → SeqEntry) : (s.modSlot n g).pools = s.pools := rfl
@[simp] theorem State.modSlot_step (s : State) (n : Nat) (g : SeqEntry → SeqEntry) : (s.modSlot n g).step = s.step := rfl
@[simp] theorem State.modSlot_cells (s : State) (n : Nat) (g : SeqEntry → SeqEntry) : (s.modSlot n g).cells = s.cells := rfl
@[simp] theorem State.modSlot_tiers (s : State) (n : Nat) (g : SeqEntry → SeqEntry) : (s.modSlot n g).tiers = s.tiers := rfl
@[simp] theorem State.modSlot_sweep (s : State) (n : Nat) (g : SeqEntry → SeqEntry) : (s.modSlot n g).sweep = s.sweep := rfl
@[simp] theorem State.modSlot_index (s : State) (n : Nat) (g : SeqEntry → SeqEntry) : (s.modSlot n g).index = s.index := rfl
@[simp] theorem State.modSlot_img (s : State) (n : Nat) (g : SeqEntry → SeqEntry) : (s.modSlot n g).img = s.img := rfl
@[simp] theorem State.modSlot_pool (s : State) (n : Nat) (g : SeqEntry → SeqEntry) : (s.modSlot n g).pool = s.pool := rfl
@[simp] theorem State.modSlot_fab (s : State) (n : Nat) (g : SeqEntry → SeqEntry) : (s.modSlot n g).fab = s.fab := rfl
@[simp] theorem State.modSlot_ptp (s : State) (n : Nat) (g : SeqEntry → SeqEntry) : (s.modSlot n g).ptp = s.ptp := rfl
@[simp] theorem State.modSlot_tx (s : State) (n : Nat) (g : SeqEntry → SeqEntry) : (s.modSlot n g).tx = s.tx := rfl
@[simp] theorem State.modSlot_pair (s : State) (n : Nat) (g : SeqEntry → SeqEntry) : (s.modSlot n g).pair = s.pair := rfl
@[simp] theorem State.modSlot_flash (s : State) (n : Nat) (g : SeqEntry → SeqEntry) : (s.modSlot n g).flash = s.flash := rfl
@[simp] theorem State.modSlot_faults (s : State) (n : Nat) (g : SeqEntry → SeqEntry) : (s.modSlot n g).faults = s.faults := rfl
@[simp] theorem State.modSlot_power (s : State) (n : Nat) (g : SeqEntry → SeqEntry) : (s.modSlot n g).power = s.power := rfl
@[simp] theorem State.modSlot_sec (s : State) (n : Nat) (g : SeqEntry → SeqEntry) : (s.modSlot n g).sec = s.sec := rfl
@[simp] theorem State.modSlot_pins (s : State) (n : Nat) (g : SeqEntry → SeqEntry) : (s.modSlot n g).pins = s.pins := rfl

/-! ### State.freeSlot -/

@[simp] theorem State.freeSlot_now (s : State) (n : Nat) : (s.freeSlot n).now = s.now := rfl
@[simp] theorem State.freeSlot_pending (s : State) (n : Nat) : (s.freeSlot n).pending = s.pending := rfl
@[simp] theorem State.freeSlot_freeCtr (s : State) (n : Nat) : (s.freeSlot n).freeCtr = s.freeCtr := rfl
@[simp] theorem State.freeSlot_out (s : State) (n : Nat) : (s.freeSlot n).out = s.out := rfl
@[simp] theorem State.freeSlot_mod (s : State) (n : Nat) : (s.freeSlot n).mod = s.mod := rfl
@[simp] theorem State.freeSlot_dict (s : State) (n : Nat) : (s.freeSlot n).dict = s.dict := rfl
@[simp] theorem State.freeSlot_host (s : State) (n : Nat) : (s.freeSlot n).host = s.host := rfl
@[simp] theorem State.freeSlot_reqs (s : State) (n : Nat) : (s.freeSlot n).reqs = s.reqs := rfl
@[simp] theorem State.freeSlot_adm (s : State) (n : Nat) : (s.freeSlot n).adm = s.adm := rfl
@[simp] theorem State.freeSlot_pools (s : State) (n : Nat) : (s.freeSlot n).pools = s.pools := rfl
@[simp] theorem State.freeSlot_step (s : State) (n : Nat) : (s.freeSlot n).step = s.step := rfl
@[simp] theorem State.freeSlot_cells (s : State) (n : Nat) : (s.freeSlot n).cells = s.cells := rfl
@[simp] theorem State.freeSlot_tiers (s : State) (n : Nat) : (s.freeSlot n).tiers = s.tiers := rfl
@[simp] theorem State.freeSlot_sweep (s : State) (n : Nat) : (s.freeSlot n).sweep = s.sweep := rfl
@[simp] theorem State.freeSlot_index (s : State) (n : Nat) : (s.freeSlot n).index = s.index := rfl
@[simp] theorem State.freeSlot_img (s : State) (n : Nat) : (s.freeSlot n).img = s.img := rfl
@[simp] theorem State.freeSlot_pool (s : State) (n : Nat) : (s.freeSlot n).pool = s.pool := rfl
@[simp] theorem State.freeSlot_fab (s : State) (n : Nat) : (s.freeSlot n).fab = s.fab := rfl
@[simp] theorem State.freeSlot_ptp (s : State) (n : Nat) : (s.freeSlot n).ptp = s.ptp := rfl
@[simp] theorem State.freeSlot_tx (s : State) (n : Nat) : (s.freeSlot n).tx = s.tx := rfl
@[simp] theorem State.freeSlot_pair (s : State) (n : Nat) : (s.freeSlot n).pair = s.pair := rfl
@[simp] theorem State.freeSlot_flash (s : State) (n : Nat) : (s.freeSlot n).flash = s.flash := rfl
@[simp] theorem State.freeSlot_faults (s : State) (n : Nat) : (s.freeSlot n).faults = s.faults := rfl
@[simp] theorem State.freeSlot_power (s : State) (n : Nat) : (s.freeSlot n).power = s.power := rfl
@[simp] theorem State.freeSlot_sec (s : State) (n : Nat) : (s.freeSlot n).sec = s.sec := rfl
@[simp] theorem State.freeSlot_pins (s : State) (n : Nat) : (s.freeSlot n).pins = s.pins := rfl

/-! ### State.modStream -/

@[simp] theorem State.modStream_now (s : State) (n : Nat) (g : Stream → Stream) : (s.modStream n g).now = s.now := rfl
@[simp] theorem State.modStream_pending (s : State) (n : Nat) (g : Stream → Stream) :
    (s.modStream n g).pending = s.pending := rfl
@[simp] theorem State.modStream_freeCtr (s : State) (n : Nat) (g : Stream → Stream) :
    (s.modStream n g).freeCtr = s.freeCtr := rfl
@[simp] theorem State.modStream_out (s : State) (n : Nat) (g : Stream → Stream) : (s.modStream n g).out = s.out := rfl
@[simp] theorem State.modStream_mod (s : State) (n : Nat) (g : Stream → Stream) : (s.modStream n g).mod = s.mod := rfl
@[simp] theorem State.modStream_dict (s : State) (n : Nat) (g : Stream → Stream) : (s.modStream n g).dict = s.dict := rfl
@[simp] theorem State.modStream_host (s : State) (n : Nat) (g : Stream → Stream) : (s.modStream n g).host = s.host := rfl
@[simp] theorem State.modStream_reqs (s : State) (n : Nat) (g : Stream → Stream) : (s.modStream n g).reqs = s.reqs := rfl
@[simp] theorem State.modStream_adm (s : State) (n : Nat) (g : Stream → Stream) : (s.modStream n g).adm = s.adm := rfl
@[simp] theorem State.modStream_pools (s : State) (n : Nat) (g : Stream → Stream) : (s.modStream n g).pools = s.pools := rfl
@[simp] theorem State.modStream_step (s : State) (n : Nat) (g : Stream → Stream) : (s.modStream n g).step = s.step := rfl
@[simp] theorem State.modStream_cells (s : State) (n : Nat) (g : Stream → Stream) : (s.modStream n g).cells = s.cells := rfl
@[simp] theorem State.modStream_tiers (s : State) (n : Nat) (g : Stream → Stream) : (s.modStream n g).tiers = s.tiers := rfl
@[simp] theorem State.modStream_sweep (s : State) (n : Nat) (g : Stream → Stream) : (s.modStream n g).sweep = s.sweep := rfl
@[simp] theorem State.modStream_index (s : State) (n : Nat) (g : Stream → Stream) : (s.modStream n g).index = s.index := rfl
@[simp] theorem State.modStream_img (s : State) (n : Nat) (g : Stream → Stream) : (s.modStream n g).img = s.img := rfl
@[simp] theorem State.modStream_pool (s : State) (n : Nat) (g : Stream → Stream) : (s.modStream n g).pool = s.pool := rfl
@[simp] theorem State.modStream_fab (s : State) (n : Nat) (g : Stream → Stream) : (s.modStream n g).fab = s.fab := rfl
@[simp] theorem State.modStream_ptp (s : State) (n : Nat) (g : Stream → Stream) : (s.modStream n g).ptp = s.ptp := rfl
@[simp] theorem State.modStream_tx (s : State) (n : Nat) (g : Stream → Stream) : (s.modStream n g).tx = s.tx := rfl
@[simp] theorem State.modStream_pair (s : State) (n : Nat) (g : Stream → Stream) : (s.modStream n g).pair = s.pair := rfl
@[simp] theorem State.modStream_flash (s : State) (n : Nat) (g : Stream → Stream) : (s.modStream n g).flash = s.flash := rfl
@[simp] theorem State.modStream_faults (s : State) (n : Nat) (g : Stream → Stream) : (s.modStream n g).faults = s.faults := rfl
@[simp] theorem State.modStream_power (s : State) (n : Nat) (g : Stream → Stream) : (s.modStream n g).power = s.power := rfl
@[simp] theorem State.modStream_sec (s : State) (n : Nat) (g : Stream → Stream) : (s.modStream n g).sec = s.sec := rfl
@[simp] theorem State.modStream_pins (s : State) (n : Nat) (g : Stream → Stream) : (s.modStream n g).pins = s.pins := rfl

/-! ### State.relieve -/

@[simp] theorem State.relieve_now (s : State) (f a : Nat) : (s.relieve f a).now = s.now := rfl
@[simp] theorem State.relieve_pending (s : State) (f a : Nat) : (s.relieve f a).pending = s.pending := rfl
@[simp] theorem State.relieve_freeCtr (s : State) (f a : Nat) : (s.relieve f a).freeCtr = s.freeCtr := rfl
@[simp] theorem State.relieve_out (s : State) (f a : Nat) : (s.relieve f a).out = s.out := rfl
@[simp] theorem State.relieve_mod (s : State) (f a : Nat) : (s.relieve f a).mod = s.mod := rfl
@[simp] theorem State.relieve_dict (s : State) (f a : Nat) : (s.relieve f a).dict = s.dict := rfl
@[simp] theorem State.relieve_host (s : State) (f a : Nat) : (s.relieve f a).host = s.host := rfl
@[simp] theorem State.relieve_reqs (s : State) (f a : Nat) : (s.relieve f a).reqs = s.reqs := rfl
@[simp] theorem State.relieve_pools (s : State) (f a : Nat) : (s.relieve f a).pools = s.pools := rfl
@[simp] theorem State.relieve_seq (s : State) (f a : Nat) : (s.relieve f a).seq = s.seq := rfl
@[simp] theorem State.relieve_step (s : State) (f a : Nat) : (s.relieve f a).step = s.step := rfl
@[simp] theorem State.relieve_cells (s : State) (f a : Nat) : (s.relieve f a).cells = s.cells := rfl
@[simp] theorem State.relieve_tiers (s : State) (f a : Nat) : (s.relieve f a).tiers = s.tiers := rfl
@[simp] theorem State.relieve_sweep (s : State) (f a : Nat) : (s.relieve f a).sweep = s.sweep := rfl
@[simp] theorem State.relieve_index (s : State) (f a : Nat) : (s.relieve f a).index = s.index := rfl
@[simp] theorem State.relieve_img (s : State) (f a : Nat) : (s.relieve f a).img = s.img := rfl
@[simp] theorem State.relieve_pool (s : State) (f a : Nat) : (s.relieve f a).pool = s.pool := rfl
@[simp] theorem State.relieve_fab (s : State) (f a : Nat) : (s.relieve f a).fab = s.fab := rfl
@[simp] theorem State.relieve_ptp (s : State) (f a : Nat) : (s.relieve f a).ptp = s.ptp := rfl
@[simp] theorem State.relieve_tx (s : State) (f a : Nat) : (s.relieve f a).tx = s.tx := rfl
@[simp] theorem State.relieve_pair (s : State) (f a : Nat) : (s.relieve f a).pair = s.pair := rfl
@[simp] theorem State.relieve_flash (s : State) (f a : Nat) : (s.relieve f a).flash = s.flash := rfl
@[simp] theorem State.relieve_faults (s : State) (f a : Nat) : (s.relieve f a).faults = s.faults := rfl
@[simp] theorem State.relieve_power (s : State) (f a : Nat) : (s.relieve f a).power = s.power := rfl
@[simp] theorem State.relieve_sec (s : State) (f a : Nat) : (s.relieve f a).sec = s.sec := rfl
@[simp] theorem State.relieve_pins (s : State) (f a : Nat) : (s.relieve f a).pins = s.pins := rfl

/-! ### State.charge -/

@[simp] theorem State.charge_now (s : State) (f a : Nat) (l : Ledger) (u n w : Nat) : (s.charge f a l u n w).now = s.now := by
  unfold State.charge; split <;> rfl
@[simp] theorem State.charge_pending (s : State) (f a : Nat) (l : Ledger) (u n w : Nat) :
    (s.charge f a l u n w).pending = s.pending := by
  unfold State.charge; split <;> rfl
@[simp] theorem State.charge_freeCtr (s : State) (f a : Nat) (l : Ledger) (u n w : Nat) :
    (s.charge f a l u n w).freeCtr = s.freeCtr := by
  unfold State.charge; split <;> rfl
@[simp] theorem State.charge_out (s : State) (f a : Nat) (l : Ledger) (u n w : Nat) : (s.charge f a l u n w).out = s.out := by
  unfold State.charge; split <;> rfl
@[simp] theorem State.charge_mod (s : State) (f a : Nat) (l : Ledger) (u n w : Nat) : (s.charge f a l u n w).mod = s.mod := by
  unfold State.charge; split <;> rfl
@[simp] theorem State.charge_dict (s : State) (f a : Nat) (l : Ledger) (u n w : Nat) :
    (s.charge f a l u n w).dict = s.dict := by
  unfold State.charge; split <;> rfl
@[simp] theorem State.charge_host (s : State) (f a : Nat) (l : Ledger) (u n w : Nat) :
    (s.charge f a l u n w).host = s.host := by
  unfold State.charge; split <;> rfl
@[simp] theorem State.charge_reqs (s : State) (f a : Nat) (l : Ledger) (u n w : Nat) :
    (s.charge f a l u n w).reqs = s.reqs := by
  unfold State.charge; split <;> rfl
@[simp] theorem State.charge_pools (s : State) (f a : Nat) (l : Ledger) (u n w : Nat) :
    (s.charge f a l u n w).pools = s.pools := by
  unfold State.charge; split <;> rfl
@[simp] theorem State.charge_seq (s : State) (f a : Nat) (l : Ledger) (u n w : Nat) : (s.charge f a l u n w).seq = s.seq := by
  unfold State.charge; split <;> rfl
@[simp] theorem State.charge_step (s : State) (f a : Nat) (l : Ledger) (u n w : Nat) :
    (s.charge f a l u n w).step = s.step := by
  unfold State.charge; split <;> rfl
@[simp] theorem State.charge_cells (s : State) (f a : Nat) (l : Ledger) (u n w : Nat) :
    (s.charge f a l u n w).cells = s.cells := by
  unfold State.charge; split <;> rfl
@[simp] theorem State.charge_tiers (s : State) (f a : Nat) (l : Ledger) (u n w : Nat) :
    (s.charge f a l u n w).tiers = s.tiers := by
  unfold State.charge; split <;> rfl
@[simp] theorem State.charge_sweep (s : State) (f a : Nat) (l : Ledger) (u n w : Nat) :
    (s.charge f a l u n w).sweep = s.sweep := by
  unfold State.charge; split <;> rfl
@[simp] theorem State.charge_index (s : State) (f a : Nat) (l : Ledger) (u n w : Nat) :
    (s.charge f a l u n w).index = s.index := by
  unfold State.charge; split <;> rfl
@[simp] theorem State.charge_img (s : State) (f a : Nat) (l : Ledger) (u n w : Nat) : (s.charge f a l u n w).img = s.img := by
  unfold State.charge; split <;> rfl
@[simp] theorem State.charge_pool (s : State) (f a : Nat) (l : Ledger) (u n w : Nat) :
    (s.charge f a l u n w).pool = s.pool := by
  unfold State.charge; split <;> rfl
@[simp] theorem State.charge_fab (s : State) (f a : Nat) (l : Ledger) (u n w : Nat) : (s.charge f a l u n w).fab = s.fab := by
  unfold State.charge; split <;> rfl
@[simp] theorem State.charge_ptp (s : State) (f a : Nat) (l : Ledger) (u n w : Nat) : (s.charge f a l u n w).ptp = s.ptp := by
  unfold State.charge; split <;> rfl
@[simp] theorem State.charge_tx (s : State) (f a : Nat) (l : Ledger) (u n w : Nat) : (s.charge f a l u n w).tx = s.tx := by
  unfold State.charge; split <;> rfl
@[simp] theorem State.charge_pair (s : State) (f a : Nat) (l : Ledger) (u n w : Nat) :
    (s.charge f a l u n w).pair = s.pair := by
  unfold State.charge; split <;> rfl
@[simp] theorem State.charge_flash (s : State) (f a : Nat) (l : Ledger) (u n w : Nat) :
    (s.charge f a l u n w).flash = s.flash := by
  unfold State.charge; split <;> rfl
@[simp] theorem State.charge_faults (s : State) (f a : Nat) (l : Ledger) (u n w : Nat) :
    (s.charge f a l u n w).faults = s.faults := by
  unfold State.charge; split <;> rfl
@[simp] theorem State.charge_power (s : State) (f a : Nat) (l : Ledger) (u n w : Nat) :
    (s.charge f a l u n w).power = s.power := by
  unfold State.charge; split <;> rfl
@[simp] theorem State.charge_sec (s : State) (f a : Nat) (l : Ledger) (u n w : Nat) : (s.charge f a l u n w).sec = s.sec := by
  unfold State.charge; split <;> rfl
@[simp] theorem State.charge_pins (s : State) (f a : Nat) (l : Ledger) (u n w : Nat) :
    (s.charge f a l u n w).pins = s.pins := by
  unfold State.charge; split <;> rfl

/-! ### State.unbook -/

@[simp] theorem State.unbook_now (s : State) (f a : Nat) : (s.unbook f a).now = s.now := rfl
@[simp] theorem State.unbook_pending (s : State) (f a : Nat) : (s.unbook f a).pending = s.pending := rfl
@[simp] theorem State.unbook_freeCtr (s : State) (f a : Nat) : (s.unbook f a).freeCtr = s.freeCtr := rfl
@[simp] theorem State.unbook_out (s : State) (f a : Nat) : (s.unbook f a).out = s.out := rfl
@[simp] theorem State.unbook_mod (s : State) (f a : Nat) : (s.unbook f a).mod = s.mod := rfl
@[simp] theorem State.unbook_dict (s : State) (f a : Nat) : (s.unbook f a).dict = s.dict := rfl
@[simp] theorem State.unbook_host (s : State) (f a : Nat) : (s.unbook f a).host = s.host := rfl
@[simp] theorem State.unbook_reqs (s : State) (f a : Nat) : (s.unbook f a).reqs = s.reqs := rfl
@[simp] theorem State.unbook_adm (s : State) (f a : Nat) : (s.unbook f a).adm = s.adm := rfl
@[simp] theorem State.unbook_pools (s : State) (f a : Nat) : (s.unbook f a).pools = s.pools := rfl
@[simp] theorem State.unbook_seq (s : State) (f a : Nat) : (s.unbook f a).seq = s.seq := rfl
@[simp] theorem State.unbook_step (s : State) (f a : Nat) : (s.unbook f a).step = s.step := rfl
@[simp] theorem State.unbook_cells (s : State) (f a : Nat) : (s.unbook f a).cells = s.cells := rfl
@[simp] theorem State.unbook_tiers (s : State) (f a : Nat) : (s.unbook f a).tiers = s.tiers := rfl
@[simp] theorem State.unbook_index (s : State) (f a : Nat) : (s.unbook f a).index = s.index := rfl
@[simp] theorem State.unbook_img (s : State) (f a : Nat) : (s.unbook f a).img = s.img := rfl
@[simp] theorem State.unbook_pool (s : State) (f a : Nat) : (s.unbook f a).pool = s.pool := rfl
@[simp] theorem State.unbook_fab (s : State) (f a : Nat) : (s.unbook f a).fab = s.fab := rfl
@[simp] theorem State.unbook_ptp (s : State) (f a : Nat) : (s.unbook f a).ptp = s.ptp := rfl
@[simp] theorem State.unbook_tx (s : State) (f a : Nat) : (s.unbook f a).tx = s.tx := rfl
@[simp] theorem State.unbook_pair (s : State) (f a : Nat) : (s.unbook f a).pair = s.pair := rfl
@[simp] theorem State.unbook_flash (s : State) (f a : Nat) : (s.unbook f a).flash = s.flash := rfl
@[simp] theorem State.unbook_faults (s : State) (f a : Nat) : (s.unbook f a).faults = s.faults := rfl
@[simp] theorem State.unbook_power (s : State) (f a : Nat) : (s.unbook f a).power = s.power := rfl
@[simp] theorem State.unbook_sec (s : State) (f a : Nat) : (s.unbook f a).sec = s.sec := rfl
@[simp] theorem State.unbook_pins (s : State) (f a : Nat) : (s.unbook f a).pins = s.pins := rfl

/-! ### State.fire -/

@[simp] theorem State.fire_now (s : State) (f v : Nat) : (s.fire f v).now = s.now := by
  unfold State.fire; dsimp only; (repeat' split) <;> rfl
@[simp] theorem State.fire_pending (s : State) (f v : Nat) : (s.fire f v).pending = s.pending := by
  unfold State.fire; dsimp only; (repeat' split) <;> rfl
@[simp] theorem State.fire_freeCtr (s : State) (f v : Nat) : (s.fire f v).freeCtr = s.freeCtr := by
  unfold State.fire; dsimp only; (repeat' split) <;> rfl
@[simp] theorem State.fire_mod (s : State) (f v : Nat) : (s.fire f v).mod = s.mod := by
  unfold State.fire; dsimp only; (repeat' split) <;> rfl
@[simp] theorem State.fire_dict (s : State) (f v : Nat) : (s.fire f v).dict = s.dict := by
  unfold State.fire; dsimp only; (repeat' split) <;> rfl
@[simp] theorem State.fire_reqs (s : State) (f v : Nat) : (s.fire f v).reqs = s.reqs := by
  unfold State.fire; dsimp only; (repeat' split) <;> rfl
@[simp] theorem State.fire_adm (s : State) (f v : Nat) : (s.fire f v).adm = s.adm := by
  unfold State.fire; dsimp only; (repeat' split) <;> rfl
@[simp] theorem State.fire_pools (s : State) (f v : Nat) : (s.fire f v).pools = s.pools := by
  unfold State.fire; dsimp only; (repeat' split) <;> rfl
@[simp] theorem State.fire_seq (s : State) (f v : Nat) : (s.fire f v).seq = s.seq := by
  unfold State.fire; dsimp only; (repeat' split) <;> rfl
@[simp] theorem State.fire_step (s : State) (f v : Nat) : (s.fire f v).step = s.step := by
  unfold State.fire; dsimp only; (repeat' split) <;> rfl
@[simp] theorem State.fire_cells (s : State) (f v : Nat) : (s.fire f v).cells = s.cells := by
  unfold State.fire; dsimp only; (repeat' split) <;> rfl
@[simp] theorem State.fire_tiers (s : State) (f v : Nat) : (s.fire f v).tiers = s.tiers := by
  unfold State.fire; dsimp only; (repeat' split) <;> rfl
@[simp] theorem State.fire_sweep (s : State) (f v : Nat) : (s.fire f v).sweep = s.sweep := by
  unfold State.fire; dsimp only; (repeat' split) <;> rfl
@[simp] theorem State.fire_index (s : State) (f v : Nat) : (s.fire f v).index = s.index := by
  unfold State.fire; dsimp only; (repeat' split) <;> rfl
@[simp] theorem State.fire_img (s : State) (f v : Nat) : (s.fire f v).img = s.img := by
  unfold State.fire; dsimp only; (repeat' split) <;> rfl
@[simp] theorem State.fire_pool (s : State) (f v : Nat) : (s.fire f v).pool = s.pool := by
  unfold State.fire; dsimp only; (repeat' split) <;> rfl
@[simp] theorem State.fire_fab (s : State) (f v : Nat) : (s.fire f v).fab = s.fab := by
  unfold State.fire; dsimp only; (repeat' split) <;> rfl
@[simp] theorem State.fire_ptp (s : State) (f v : Nat) : (s.fire f v).ptp = s.ptp := by
  unfold State.fire; dsimp only; (repeat' split) <;> rfl
@[simp] theorem State.fire_tx (s : State) (f v : Nat) : (s.fire f v).tx = s.tx := by
  unfold State.fire; dsimp only; (repeat' split) <;> rfl
@[simp] theorem State.fire_pair (s : State) (f v : Nat) : (s.fire f v).pair = s.pair := by
  unfold State.fire; dsimp only; (repeat' split) <;> rfl
@[simp] theorem State.fire_flash (s : State) (f v : Nat) : (s.fire f v).flash = s.flash := by
  unfold State.fire; dsimp only; (repeat' split) <;> rfl
@[simp] theorem State.fire_faults (s : State) (f v : Nat) : (s.fire f v).faults = s.faults := by
  unfold State.fire; dsimp only; (repeat' split) <;> rfl
@[simp] theorem State.fire_power (s : State) (f v : Nat) : (s.fire f v).power = s.power := by
  unfold State.fire; dsimp only; (repeat' split) <;> rfl
@[simp] theorem State.fire_sec (s : State) (f v : Nat) : (s.fire f v).sec = s.sec := by
  unfold State.fire; dsimp only; (repeat' split) <;> rfl
@[simp] theorem State.fire_pins (s : State) (f v : Nat) : (s.fire f v).pins = s.pins := by
  unfold State.fire; dsimp only; (repeat' split) <;> rfl

/-! ### State.funcEvent -/

@[simp] theorem State.funcEvent_now (s : State) (f b : Nat) : (s.funcEvent f b).now = s.now := by unfold State.funcEvent; simp
@[simp] theorem State.funcEvent_pending (s : State) (f b : Nat) : (s.funcEvent f b).pending = s.pending := by
  unfold State.funcEvent; simp
@[simp] theorem State.funcEvent_freeCtr (s : State) (f b : Nat) : (s.funcEvent f b).freeCtr = s.freeCtr := by
  unfold State.funcEvent; simp
@[simp] theorem State.funcEvent_mod (s : State) (f b : Nat) : (s.funcEvent f b).mod = s.mod := by unfold State.funcEvent; simp
@[simp] theorem State.funcEvent_dict (s : State) (f b : Nat) : (s.funcEvent f b).dict = s.dict := by
  unfold State.funcEvent; simp
@[simp] theorem State.funcEvent_reqs (s : State) (f b : Nat) : (s.funcEvent f b).reqs = s.reqs := by
  unfold State.funcEvent; simp
@[simp] theorem State.funcEvent_adm (s : State) (f b : Nat) : (s.funcEvent f b).adm = s.adm := by unfold State.funcEvent; simp
@[simp] theorem State.funcEvent_pools (s : State) (f b : Nat) : (s.funcEvent f b).pools = s.pools := by
  unfold State.funcEvent; simp
@[simp] theorem State.funcEvent_seq (s : State) (f b : Nat) : (s.funcEvent f b).seq = s.seq := by unfold State.funcEvent; simp
@[simp] theorem State.funcEvent_step (s : State) (f b : Nat) : (s.funcEvent f b).step = s.step := by
  unfold State.funcEvent; simp
@[simp] theorem State.funcEvent_cells (s : State) (f b : Nat) : (s.funcEvent f b).cells = s.cells := by
  unfold State.funcEvent; simp
@[simp] theorem State.funcEvent_tiers (s : State) (f b : Nat) : (s.funcEvent f b).tiers = s.tiers := by
  unfold State.funcEvent; simp
@[simp] theorem State.funcEvent_sweep (s : State) (f b : Nat) : (s.funcEvent f b).sweep = s.sweep := by
  unfold State.funcEvent; simp
@[simp] theorem State.funcEvent_index (s : State) (f b : Nat) : (s.funcEvent f b).index = s.index := by
  unfold State.funcEvent; simp
@[simp] theorem State.funcEvent_img (s : State) (f b : Nat) : (s.funcEvent f b).img = s.img := by unfold State.funcEvent; simp
@[simp] theorem State.funcEvent_pool (s : State) (f b : Nat) : (s.funcEvent f b).pool = s.pool := by
  unfold State.funcEvent; simp
@[simp] theorem State.funcEvent_fab (s : State) (f b : Nat) : (s.funcEvent f b).fab = s.fab := by unfold State.funcEvent; simp
@[simp] theorem State.funcEvent_ptp (s : State) (f b : Nat) : (s.funcEvent f b).ptp = s.ptp := by unfold State.funcEvent; simp
@[simp] theorem State.funcEvent_tx (s : State) (f b : Nat) : (s.funcEvent f b).tx = s.tx := by unfold State.funcEvent; simp
@[simp] theorem State.funcEvent_pair (s : State) (f b : Nat) : (s.funcEvent f b).pair = s.pair := by
  unfold State.funcEvent; simp
@[simp] theorem State.funcEvent_flash (s : State) (f b : Nat) : (s.funcEvent f b).flash = s.flash := by
  unfold State.funcEvent; simp
@[simp] theorem State.funcEvent_faults (s : State) (f b : Nat) : (s.funcEvent f b).faults = s.faults := by
  unfold State.funcEvent; simp
@[simp] theorem State.funcEvent_power (s : State) (f b : Nat) : (s.funcEvent f b).power = s.power := by
  unfold State.funcEvent; simp
@[simp] theorem State.funcEvent_sec (s : State) (f b : Nat) : (s.funcEvent f b).sec = s.sec := by unfold State.funcEvent; simp
@[simp] theorem State.funcEvent_pins (s : State) (f b : Nat) : (s.funcEvent f b).pins = s.pins := by
  unfold State.funcEvent; simp

/-! ### State.putCpl -/

@[simp] theorem State.putCpl_now (s : State) (f v n : Nat) : (s.putCpl f v n).now = s.now := by
  unfold State.putCpl; dsimp only; split <;> simp
@[simp] theorem State.putCpl_pending (s : State) (f v n : Nat) : (s.putCpl f v n).pending = s.pending := by
  unfold State.putCpl; dsimp only; split <;> simp
@[simp] theorem State.putCpl_freeCtr (s : State) (f v n : Nat) : (s.putCpl f v n).freeCtr = s.freeCtr := by
  unfold State.putCpl; dsimp only; split <;> simp
@[simp] theorem State.putCpl_mod (s : State) (f v n : Nat) : (s.putCpl f v n).mod = s.mod := by
  unfold State.putCpl; dsimp only; split <;> simp
@[simp] theorem State.putCpl_dict (s : State) (f v n : Nat) : (s.putCpl f v n).dict = s.dict := by
  unfold State.putCpl; dsimp only; split <;> simp
@[simp] theorem State.putCpl_reqs (s : State) (f v n : Nat) : (s.putCpl f v n).reqs = s.reqs := by
  unfold State.putCpl; dsimp only; split <;> simp
@[simp] theorem State.putCpl_adm (s : State) (f v n : Nat) : (s.putCpl f v n).adm = s.adm := by
  unfold State.putCpl; dsimp only; split <;> simp
@[simp] theorem State.putCpl_pools (s : State) (f v n : Nat) : (s.putCpl f v n).pools = s.pools := by
  unfold State.putCpl; dsimp only; split <;> simp
@[simp] theorem State.putCpl_seq (s : State) (f v n : Nat) : (s.putCpl f v n).seq = s.seq := by
  unfold State.putCpl; dsimp only; split <;> simp
@[simp] theorem State.putCpl_step (s : State) (f v n : Nat) : (s.putCpl f v n).step = s.step := by
  unfold State.putCpl; dsimp only; split <;> simp
@[simp] theorem State.putCpl_cells (s : State) (f v n : Nat) : (s.putCpl f v n).cells = s.cells := by
  unfold State.putCpl; dsimp only; split <;> simp
@[simp] theorem State.putCpl_tiers (s : State) (f v n : Nat) : (s.putCpl f v n).tiers = s.tiers := by
  unfold State.putCpl; dsimp only; split <;> simp
@[simp] theorem State.putCpl_sweep (s : State) (f v n : Nat) : (s.putCpl f v n).sweep = s.sweep := by
  unfold State.putCpl; dsimp only; split <;> simp
@[simp] theorem State.putCpl_index (s : State) (f v n : Nat) : (s.putCpl f v n).index = s.index := by
  unfold State.putCpl; dsimp only; split <;> simp
@[simp] theorem State.putCpl_img (s : State) (f v n : Nat) : (s.putCpl f v n).img = s.img := by
  unfold State.putCpl; dsimp only; split <;> simp
@[simp] theorem State.putCpl_pool (s : State) (f v n : Nat) : (s.putCpl f v n).pool = s.pool := by
  unfold State.putCpl; dsimp only; split <;> simp
@[simp] theorem State.putCpl_fab (s : State) (f v n : Nat) : (s.putCpl f v n).fab = s.fab := by
  unfold State.putCpl; dsimp only; split <;> simp
@[simp] theorem State.putCpl_ptp (s : State) (f v n : Nat) : (s.putCpl f v n).ptp = s.ptp := by
  unfold State.putCpl; dsimp only; split <;> simp
@[simp] theorem State.putCpl_tx (s : State) (f v n : Nat) : (s.putCpl f v n).tx = s.tx := by
  unfold State.putCpl; dsimp only; split <;> simp
@[simp] theorem State.putCpl_pair (s : State) (f v n : Nat) : (s.putCpl f v n).pair = s.pair := by
  unfold State.putCpl; dsimp only; split <;> simp
@[simp] theorem State.putCpl_flash (s : State) (f v n : Nat) : (s.putCpl f v n).flash = s.flash := by
  unfold State.putCpl; dsimp only; split <;> simp
@[simp] theorem State.putCpl_faults (s : State) (f v n : Nat) : (s.putCpl f v n).faults = s.faults := by
  unfold State.putCpl; dsimp only; split <;> simp
@[simp] theorem State.putCpl_power (s : State) (f v n : Nat) : (s.putCpl f v n).power = s.power := by
  unfold State.putCpl; dsimp only; split <;> simp
@[simp] theorem State.putCpl_sec (s : State) (f v n : Nat) : (s.putCpl f v n).sec = s.sec := by
  unfold State.putCpl; dsimp only; split <;> simp
@[simp] theorem State.putCpl_pins (s : State) (f v n : Nat) : (s.putCpl f v n).pins = s.pins := by
  unfold State.putCpl; dsimp only; split <;> simp

/-! ### State.canRaise -/

@[simp] theorem State.canRaise_now (s : State) (k : Nat) : (s.canRaise k).now = s.now := by
  unfold State.canRaise; dsimp only; (repeat' split) <;> simp
@[simp] theorem State.canRaise_pending (s : State) (k : Nat) : (s.canRaise k).pending = s.pending := by
  unfold State.canRaise; dsimp only; (repeat' split) <;> simp
@[simp] theorem State.canRaise_freeCtr (s : State) (k : Nat) : (s.canRaise k).freeCtr = s.freeCtr := by
  unfold State.canRaise; dsimp only; (repeat' split) <;> simp
@[simp] theorem State.canRaise_out (s : State) (k : Nat) : (s.canRaise k).out = s.out := by
  unfold State.canRaise; dsimp only; (repeat' split) <;> simp
@[simp] theorem State.canRaise_mod (s : State) (k : Nat) : (s.canRaise k).mod = s.mod := by
  unfold State.canRaise; dsimp only; (repeat' split) <;> simp
@[simp] theorem State.canRaise_host (s : State) (k : Nat) : (s.canRaise k).host = s.host := by
  unfold State.canRaise; dsimp only; (repeat' split) <;> simp
@[simp] theorem State.canRaise_reqs (s : State) (k : Nat) : (s.canRaise k).reqs = s.reqs := by
  unfold State.canRaise; dsimp only; (repeat' split) <;> simp
@[simp] theorem State.canRaise_adm (s : State) (k : Nat) : (s.canRaise k).adm = s.adm := by
  unfold State.canRaise; dsimp only; (repeat' split) <;> simp
@[simp] theorem State.canRaise_pools (s : State) (k : Nat) : (s.canRaise k).pools = s.pools := by
  unfold State.canRaise; dsimp only; (repeat' split) <;> simp
@[simp] theorem State.canRaise_seq (s : State) (k : Nat) : (s.canRaise k).seq = s.seq := by
  unfold State.canRaise; dsimp only; (repeat' split) <;> simp
@[simp] theorem State.canRaise_step (s : State) (k : Nat) : (s.canRaise k).step = s.step := by
  unfold State.canRaise; dsimp only; (repeat' split) <;> simp
@[simp] theorem State.canRaise_cells (s : State) (k : Nat) : (s.canRaise k).cells = s.cells := by
  unfold State.canRaise; dsimp only; (repeat' split) <;> simp
@[simp] theorem State.canRaise_tiers (s : State) (k : Nat) : (s.canRaise k).tiers = s.tiers := by
  unfold State.canRaise; dsimp only; (repeat' split) <;> simp
@[simp] theorem State.canRaise_sweep (s : State) (k : Nat) : (s.canRaise k).sweep = s.sweep := by
  unfold State.canRaise; dsimp only; (repeat' split) <;> simp
@[simp] theorem State.canRaise_index (s : State) (k : Nat) : (s.canRaise k).index = s.index := by
  unfold State.canRaise; dsimp only; (repeat' split) <;> simp
@[simp] theorem State.canRaise_img (s : State) (k : Nat) : (s.canRaise k).img = s.img := by
  unfold State.canRaise; dsimp only; (repeat' split) <;> simp
@[simp] theorem State.canRaise_pool (s : State) (k : Nat) : (s.canRaise k).pool = s.pool := by
  unfold State.canRaise; dsimp only; (repeat' split) <;> simp
@[simp] theorem State.canRaise_fab (s : State) (k : Nat) : (s.canRaise k).fab = s.fab := by
  unfold State.canRaise; dsimp only; (repeat' split) <;> simp
@[simp] theorem State.canRaise_ptp (s : State) (k : Nat) : (s.canRaise k).ptp = s.ptp := by
  unfold State.canRaise; dsimp only; (repeat' split) <;> simp
@[simp] theorem State.canRaise_tx (s : State) (k : Nat) : (s.canRaise k).tx = s.tx := by
  unfold State.canRaise; dsimp only; (repeat' split) <;> simp
@[simp] theorem State.canRaise_pair (s : State) (k : Nat) : (s.canRaise k).pair = s.pair := by
  unfold State.canRaise; dsimp only; (repeat' split) <;> simp
@[simp] theorem State.canRaise_flash (s : State) (k : Nat) : (s.canRaise k).flash = s.flash := by
  unfold State.canRaise; dsimp only; (repeat' split) <;> simp
@[simp] theorem State.canRaise_faults (s : State) (k : Nat) : (s.canRaise k).faults = s.faults := by
  unfold State.canRaise; dsimp only; (repeat' split) <;> simp
@[simp] theorem State.canRaise_power (s : State) (k : Nat) : (s.canRaise k).power = s.power := by
  unfold State.canRaise; dsimp only; (repeat' split) <;> simp
@[simp] theorem State.canRaise_sec (s : State) (k : Nat) : (s.canRaise k).sec = s.sec := by
  unfold State.canRaise; dsimp only; (repeat' split) <;> simp
@[simp] theorem State.canRaise_pins (s : State) (k : Nat) : (s.canRaise k).pins = s.pins := by
  unfold State.canRaise; dsimp only; (repeat' split) <;> simp

/-! ### State.raise -/

@[simp] theorem State.raise_now (s : State) (k : Nat) : (s.raise k).now = s.now := by simp [State.raise]
@[simp] theorem State.raise_pending (s : State) (k : Nat) : (s.raise k).pending = s.pending := by simp [State.raise]
@[simp] theorem State.raise_freeCtr (s : State) (k : Nat) : (s.raise k).freeCtr = s.freeCtr := by simp [State.raise]
@[simp] theorem State.raise_mod (s : State) (k : Nat) : (s.raise k).mod = s.mod := by simp [State.raise]
@[simp] theorem State.raise_host (s : State) (k : Nat) : (s.raise k).host = s.host := by simp [State.raise]
@[simp] theorem State.raise_reqs (s : State) (k : Nat) : (s.raise k).reqs = s.reqs := by simp [State.raise]
@[simp] theorem State.raise_adm (s : State) (k : Nat) : (s.raise k).adm = s.adm := by simp [State.raise]
@[simp] theorem State.raise_pools (s : State) (k : Nat) : (s.raise k).pools = s.pools := by simp [State.raise]
@[simp] theorem State.raise_seq (s : State) (k : Nat) : (s.raise k).seq = s.seq := by simp [State.raise]
@[simp] theorem State.raise_step (s : State) (k : Nat) : (s.raise k).step = s.step := by simp [State.raise]
@[simp] theorem State.raise_cells (s : State) (k : Nat) : (s.raise k).cells = s.cells := by simp [State.raise]
@[simp] theorem State.raise_tiers (s : State) (k : Nat) : (s.raise k).tiers = s.tiers := by simp [State.raise]
@[simp] theorem State.raise_sweep (s : State) (k : Nat) : (s.raise k).sweep = s.sweep := by simp [State.raise]
@[simp] theorem State.raise_index (s : State) (k : Nat) : (s.raise k).index = s.index := by simp [State.raise]
@[simp] theorem State.raise_img (s : State) (k : Nat) : (s.raise k).img = s.img := by simp [State.raise]
@[simp] theorem State.raise_pool (s : State) (k : Nat) : (s.raise k).pool = s.pool := by simp [State.raise]
@[simp] theorem State.raise_fab (s : State) (k : Nat) : (s.raise k).fab = s.fab := by simp [State.raise]
@[simp] theorem State.raise_ptp (s : State) (k : Nat) : (s.raise k).ptp = s.ptp := by simp [State.raise]
@[simp] theorem State.raise_tx (s : State) (k : Nat) : (s.raise k).tx = s.tx := by simp [State.raise]
@[simp] theorem State.raise_pair (s : State) (k : Nat) : (s.raise k).pair = s.pair := by simp [State.raise]
@[simp] theorem State.raise_flash (s : State) (k : Nat) : (s.raise k).flash = s.flash := by simp [State.raise]
@[simp] theorem State.raise_faults (s : State) (k : Nat) : (s.raise k).faults = s.faults := by simp [State.raise]
@[simp] theorem State.raise_power (s : State) (k : Nat) : (s.raise k).power = s.power := by simp [State.raise]
@[simp] theorem State.raise_sec (s : State) (k : Nat) : (s.raise k).sec = s.sec := by simp [State.raise]
@[simp] theorem State.raise_pins (s : State) (k : Nat) : (s.raise k).pins = s.pins := by simp [State.raise]

/-! ### State.countRaise -/

@[simp] theorem State.countRaise_now (s : State) (k n : Nat) : (s.countRaise k n).now = s.now := by
  unfold State.countRaise; split <;> simp
@[simp] theorem State.countRaise_pending (s : State) (k n : Nat) : (s.countRaise k n).pending = s.pending := by
  unfold State.countRaise; split <;> simp
@[simp] theorem State.countRaise_freeCtr (s : State) (k n : Nat) : (s.countRaise k n).freeCtr = s.freeCtr := by
  unfold State.countRaise; split <;> simp
@[simp] theorem State.countRaise_mod (s : State) (k n : Nat) : (s.countRaise k n).mod = s.mod := by
  unfold State.countRaise; split <;> simp
@[simp] theorem State.countRaise_host (s : State) (k n : Nat) : (s.countRaise k n).host = s.host := by
  unfold State.countRaise; split <;> simp
@[simp] theorem State.countRaise_reqs (s : State) (k n : Nat) : (s.countRaise k n).reqs = s.reqs := by
  unfold State.countRaise; split <;> simp
@[simp] theorem State.countRaise_adm (s : State) (k n : Nat) : (s.countRaise k n).adm = s.adm := by
  unfold State.countRaise; split <;> simp
@[simp] theorem State.countRaise_pools (s : State) (k n : Nat) : (s.countRaise k n).pools = s.pools := by
  unfold State.countRaise; split <;> simp
@[simp] theorem State.countRaise_seq (s : State) (k n : Nat) : (s.countRaise k n).seq = s.seq := by
  unfold State.countRaise; split <;> simp
@[simp] theorem State.countRaise_step (s : State) (k n : Nat) : (s.countRaise k n).step = s.step := by
  unfold State.countRaise; split <;> simp
@[simp] theorem State.countRaise_cells (s : State) (k n : Nat) : (s.countRaise k n).cells = s.cells := by
  unfold State.countRaise; split <;> simp
@[simp] theorem State.countRaise_tiers (s : State) (k n : Nat) : (s.countRaise k n).tiers = s.tiers := by
  unfold State.countRaise; split <;> simp
@[simp] theorem State.countRaise_sweep (s : State) (k n : Nat) : (s.countRaise k n).sweep = s.sweep := by
  unfold State.countRaise; split <;> simp
@[simp] theorem State.countRaise_index (s : State) (k n : Nat) : (s.countRaise k n).index = s.index := by
  unfold State.countRaise; split <;> simp
@[simp] theorem State.countRaise_img (s : State) (k n : Nat) : (s.countRaise k n).img = s.img := by
  unfold State.countRaise; split <;> simp
@[simp] theorem State.countRaise_pool (s : State) (k n : Nat) : (s.countRaise k n).pool = s.pool := by
  unfold State.countRaise; split <;> simp
@[simp] theorem State.countRaise_fab (s : State) (k n : Nat) : (s.countRaise k n).fab = s.fab := by
  unfold State.countRaise; split <;> simp
@[simp] theorem State.countRaise_ptp (s : State) (k n : Nat) : (s.countRaise k n).ptp = s.ptp := by
  unfold State.countRaise; split <;> simp
@[simp] theorem State.countRaise_tx (s : State) (k n : Nat) : (s.countRaise k n).tx = s.tx := by
  unfold State.countRaise; split <;> simp
@[simp] theorem State.countRaise_pair (s : State) (k n : Nat) : (s.countRaise k n).pair = s.pair := by
  unfold State.countRaise; split <;> simp
@[simp] theorem State.countRaise_flash (s : State) (k n : Nat) : (s.countRaise k n).flash = s.flash := by
  unfold State.countRaise; split <;> simp
@[simp] theorem State.countRaise_faults (s : State) (k n : Nat) : (s.countRaise k n).faults = s.faults := by
  unfold State.countRaise; split <;> simp
@[simp] theorem State.countRaise_power (s : State) (k n : Nat) : (s.countRaise k n).power = s.power := by
  unfold State.countRaise; split <;> simp
@[simp] theorem State.countRaise_sec (s : State) (k n : Nat) : (s.countRaise k n).sec = s.sec := by
  unfold State.countRaise; split <;> simp
@[simp] theorem State.countRaise_pins (s : State) (k n : Nat) : (s.countRaise k n).pins = s.pins := by
  unfold State.countRaise; split <;> simp

/-! ### State.funcEventAll -/

@[simp] theorem State.funcEventAll_now (s : State) (b : Nat) : (s.funcEventAll b).now = s.now := by
  unfold State.funcEventAll; exact foldl_keeps (fun s : State => s.now) _ (fun _ _ => by split <;> simp) _ _
@[simp] theorem State.funcEventAll_pending (s : State) (b : Nat) : (s.funcEventAll b).pending = s.pending := by
  unfold State.funcEventAll; exact foldl_keeps (fun s : State => s.pending) _ (fun _ _ => by split <;> simp) _ _
@[simp] theorem State.funcEventAll_freeCtr (s : State) (b : Nat) : (s.funcEventAll b).freeCtr = s.freeCtr := by
  unfold State.funcEventAll; exact foldl_keeps (fun s : State => s.freeCtr) _ (fun _ _ => by split <;> simp) _ _
@[simp] theorem State.funcEventAll_mod (s : State) (b : Nat) : (s.funcEventAll b).mod = s.mod := by
  unfold State.funcEventAll; exact foldl_keeps (fun s : State => s.mod) _ (fun _ _ => by split <;> simp) _ _
@[simp] theorem State.funcEventAll_dict (s : State) (b : Nat) : (s.funcEventAll b).dict = s.dict := by
  unfold State.funcEventAll; exact foldl_keeps (fun s : State => s.dict) _ (fun _ _ => by split <;> simp) _ _
@[simp] theorem State.funcEventAll_reqs (s : State) (b : Nat) : (s.funcEventAll b).reqs = s.reqs := by
  unfold State.funcEventAll; exact foldl_keeps (fun s : State => s.reqs) _ (fun _ _ => by split <;> simp) _ _
@[simp] theorem State.funcEventAll_adm (s : State) (b : Nat) : (s.funcEventAll b).adm = s.adm := by
  unfold State.funcEventAll; exact foldl_keeps (fun s : State => s.adm) _ (fun _ _ => by split <;> simp) _ _
@[simp] theorem State.funcEventAll_pools (s : State) (b : Nat) : (s.funcEventAll b).pools = s.pools := by
  unfold State.funcEventAll; exact foldl_keeps (fun s : State => s.pools) _ (fun _ _ => by split <;> simp) _ _
@[simp] theorem State.funcEventAll_seq (s : State) (b : Nat) : (s.funcEventAll b).seq = s.seq := by
  unfold State.funcEventAll; exact foldl_keeps (fun s : State => s.seq) _ (fun _ _ => by split <;> simp) _ _
@[simp] theorem State.funcEventAll_step (s : State) (b : Nat) : (s.funcEventAll b).step = s.step := by
  unfold State.funcEventAll; exact foldl_keeps (fun s : State => s.step) _ (fun _ _ => by split <;> simp) _ _
@[simp] theorem State.funcEventAll_cells (s : State) (b : Nat) : (s.funcEventAll b).cells = s.cells := by
  unfold State.funcEventAll; exact foldl_keeps (fun s : State => s.cells) _ (fun _ _ => by split <;> simp) _ _
@[simp] theorem State.funcEventAll_tiers (s : State) (b : Nat) : (s.funcEventAll b).tiers = s.tiers := by
  unfold State.funcEventAll; exact foldl_keeps (fun s : State => s.tiers) _ (fun _ _ => by split <;> simp) _ _
@[simp] theorem State.funcEventAll_sweep (s : State) (b : Nat) : (s.funcEventAll b).sweep = s.sweep := by
  unfold State.funcEventAll; exact foldl_keeps (fun s : State => s.sweep) _ (fun _ _ => by split <;> simp) _ _
@[simp] theorem State.funcEventAll_index (s : State) (b : Nat) : (s.funcEventAll b).index = s.index := by
  unfold State.funcEventAll; exact foldl_keeps (fun s : State => s.index) _ (fun _ _ => by split <;> simp) _ _
@[simp] theorem State.funcEventAll_img (s : State) (b : Nat) : (s.funcEventAll b).img = s.img := by
  unfold State.funcEventAll; exact foldl_keeps (fun s : State => s.img) _ (fun _ _ => by split <;> simp) _ _
@[simp] theorem State.funcEventAll_pool (s : State) (b : Nat) : (s.funcEventAll b).pool = s.pool := by
  unfold State.funcEventAll; exact foldl_keeps (fun s : State => s.pool) _ (fun _ _ => by split <;> simp) _ _
@[simp] theorem State.funcEventAll_fab (s : State) (b : Nat) : (s.funcEventAll b).fab = s.fab := by
  unfold State.funcEventAll; exact foldl_keeps (fun s : State => s.fab) _ (fun _ _ => by split <;> simp) _ _
@[simp] theorem State.funcEventAll_ptp (s : State) (b : Nat) : (s.funcEventAll b).ptp = s.ptp := by
  unfold State.funcEventAll; exact foldl_keeps (fun s : State => s.ptp) _ (fun _ _ => by split <;> simp) _ _
@[simp] theorem State.funcEventAll_tx (s : State) (b : Nat) : (s.funcEventAll b).tx = s.tx := by
  unfold State.funcEventAll; exact foldl_keeps (fun s : State => s.tx) _ (fun _ _ => by split <;> simp) _ _
@[simp] theorem State.funcEventAll_pair (s : State) (b : Nat) : (s.funcEventAll b).pair = s.pair := by
  unfold State.funcEventAll; exact foldl_keeps (fun s : State => s.pair) _ (fun _ _ => by split <;> simp) _ _
@[simp] theorem State.funcEventAll_flash (s : State) (b : Nat) : (s.funcEventAll b).flash = s.flash := by
  unfold State.funcEventAll; exact foldl_keeps (fun s : State => s.flash) _ (fun _ _ => by split <;> simp) _ _
@[simp] theorem State.funcEventAll_faults (s : State) (b : Nat) : (s.funcEventAll b).faults = s.faults := by
  unfold State.funcEventAll; exact foldl_keeps (fun s : State => s.faults) _ (fun _ _ => by split <;> simp) _ _
@[simp] theorem State.funcEventAll_power (s : State) (b : Nat) : (s.funcEventAll b).power = s.power := by
  unfold State.funcEventAll; exact foldl_keeps (fun s : State => s.power) _ (fun _ _ => by split <;> simp) _ _
@[simp] theorem State.funcEventAll_sec (s : State) (b : Nat) : (s.funcEventAll b).sec = s.sec := by
  unfold State.funcEventAll; exact foldl_keeps (fun s : State => s.sec) _ (fun _ _ => by split <;> simp) _ _
@[simp] theorem State.funcEventAll_pins (s : State) (b : Nat) : (s.funcEventAll b).pins = s.pins := by
  unfold State.funcEventAll; exact foldl_keeps (fun s : State => s.pins) _ (fun _ _ => by split <;> simp) _ _

/-! ### State.setOp -/

@[simp] theorem State.setOp_now (s : State) (o : OpState) : (s.setOp o).now = s.now := by unfold State.setOp; split <;> simp
@[simp] theorem State.setOp_pending (s : State) (o : OpState) : (s.setOp o).pending = s.pending := by
  unfold State.setOp; split <;> simp
@[simp] theorem State.setOp_freeCtr (s : State) (o : OpState) : (s.setOp o).freeCtr = s.freeCtr := by
  unfold State.setOp; split <;> simp
@[simp] theorem State.setOp_reqs (s : State) (o : OpState) : (s.setOp o).reqs = s.reqs := by unfold State.setOp; split <;> simp
@[simp] theorem State.setOp_adm (s : State) (o : OpState) : (s.setOp o).adm = s.adm := by unfold State.setOp; split <;> simp
@[simp] theorem State.setOp_pools (s : State) (o : OpState) : (s.setOp o).pools = s.pools := by
  unfold State.setOp; split <;> simp
@[simp] theorem State.setOp_seq (s : State) (o : OpState) : (s.setOp o).seq = s.seq := by unfold State.setOp; split <;> simp
@[simp] theorem State.setOp_step (s : State) (o : OpState) : (s.setOp o).step = s.step := by unfold State.setOp; split <;> simp
@[simp] theorem State.setOp_cells (s : State) (o : OpState) : (s.setOp o).cells = s.cells := by
  unfold State.setOp; split <;> simp
@[simp] theorem State.setOp_tiers (s : State) (o : OpState) : (s.setOp o).tiers = s.tiers := by
  unfold State.setOp; split <;> simp
@[simp] theorem State.setOp_sweep (s : State) (o : OpState) : (s.setOp o).sweep = s.sweep := by
  unfold State.setOp; split <;> simp
@[simp] theorem State.setOp_index (s : State) (o : OpState) : (s.setOp o).index = s.index := by
  unfold State.setOp; split <;> simp
@[simp] theorem State.setOp_img (s : State) (o : OpState) : (s.setOp o).img = s.img := by unfold State.setOp; split <;> simp
@[simp] theorem State.setOp_pool (s : State) (o : OpState) : (s.setOp o).pool = s.pool := by unfold State.setOp; split <;> simp
@[simp] theorem State.setOp_fab (s : State) (o : OpState) : (s.setOp o).fab = s.fab := by unfold State.setOp; split <;> simp
@[simp] theorem State.setOp_ptp (s : State) (o : OpState) : (s.setOp o).ptp = s.ptp := by unfold State.setOp; split <;> simp
@[simp] theorem State.setOp_tx (s : State) (o : OpState) : (s.setOp o).tx = s.tx := by unfold State.setOp; split <;> simp
@[simp] theorem State.setOp_pair (s : State) (o : OpState) : (s.setOp o).pair = s.pair := by unfold State.setOp; split <;> simp
@[simp] theorem State.setOp_flash (s : State) (o : OpState) : (s.setOp o).flash = s.flash := by
  unfold State.setOp; split <;> simp
@[simp] theorem State.setOp_faults (s : State) (o : OpState) : (s.setOp o).faults = s.faults := by
  unfold State.setOp; split <;> simp
@[simp] theorem State.setOp_power (s : State) (o : OpState) : (s.setOp o).power = s.power := by
  unfold State.setOp; split <;> simp
@[simp] theorem State.setOp_sec (s : State) (o : OpState) : (s.setOp o).sec = s.sec := by unfold State.setOp; split <;> simp
@[simp] theorem State.setOp_pins (s : State) (o : OpState) : (s.setOp o).pins = s.pins := by unfold State.setOp; split <;> simp

/-! ### State.setPower -/

@[simp] theorem State.setPower_now (s : State) (p : PowerState) : (s.setPower p).now = s.now := by
  unfold State.setPower; split <;> simp
@[simp] theorem State.setPower_pending (s : State) (p : PowerState) : (s.setPower p).pending = s.pending := by
  unfold State.setPower; split <;> simp
@[simp] theorem State.setPower_freeCtr (s : State) (p : PowerState) : (s.setPower p).freeCtr = s.freeCtr := by
  unfold State.setPower; split <;> simp
@[simp] theorem State.setPower_mod (s : State) (p : PowerState) : (s.setPower p).mod = s.mod := by
  unfold State.setPower; split <;> simp
@[simp] theorem State.setPower_host (s : State) (p : PowerState) : (s.setPower p).host = s.host := by
  unfold State.setPower; split <;> simp
@[simp] theorem State.setPower_reqs (s : State) (p : PowerState) : (s.setPower p).reqs = s.reqs := by
  unfold State.setPower; split <;> simp
@[simp] theorem State.setPower_adm (s : State) (p : PowerState) : (s.setPower p).adm = s.adm := by
  unfold State.setPower; split <;> simp
@[simp] theorem State.setPower_pools (s : State) (p : PowerState) : (s.setPower p).pools = s.pools := by
  unfold State.setPower; split <;> simp
@[simp] theorem State.setPower_seq (s : State) (p : PowerState) : (s.setPower p).seq = s.seq := by
  unfold State.setPower; split <;> simp
@[simp] theorem State.setPower_step (s : State) (p : PowerState) : (s.setPower p).step = s.step := by
  unfold State.setPower; split <;> simp
@[simp] theorem State.setPower_cells (s : State) (p : PowerState) : (s.setPower p).cells = s.cells := by
  unfold State.setPower; split <;> simp
@[simp] theorem State.setPower_tiers (s : State) (p : PowerState) : (s.setPower p).tiers = s.tiers := by
  unfold State.setPower; split <;> simp
@[simp] theorem State.setPower_sweep (s : State) (p : PowerState) : (s.setPower p).sweep = s.sweep := by
  unfold State.setPower; split <;> simp
@[simp] theorem State.setPower_index (s : State) (p : PowerState) : (s.setPower p).index = s.index := by
  unfold State.setPower; split <;> simp
@[simp] theorem State.setPower_img (s : State) (p : PowerState) : (s.setPower p).img = s.img := by
  unfold State.setPower; split <;> simp
@[simp] theorem State.setPower_pool (s : State) (p : PowerState) : (s.setPower p).pool = s.pool := by
  unfold State.setPower; split <;> simp
@[simp] theorem State.setPower_fab (s : State) (p : PowerState) : (s.setPower p).fab = s.fab := by
  unfold State.setPower; split <;> simp
@[simp] theorem State.setPower_ptp (s : State) (p : PowerState) : (s.setPower p).ptp = s.ptp := by
  unfold State.setPower; split <;> simp
@[simp] theorem State.setPower_tx (s : State) (p : PowerState) : (s.setPower p).tx = s.tx := by
  unfold State.setPower; split <;> simp
@[simp] theorem State.setPower_pair (s : State) (p : PowerState) : (s.setPower p).pair = s.pair := by
  unfold State.setPower; split <;> simp
@[simp] theorem State.setPower_flash (s : State) (p : PowerState) : (s.setPower p).flash = s.flash := by
  unfold State.setPower; split <;> simp
@[simp] theorem State.setPower_faults (s : State) (p : PowerState) : (s.setPower p).faults = s.faults := by
  unfold State.setPower; split <;> simp
@[simp] theorem State.setPower_sec (s : State) (p : PowerState) : (s.setPower p).sec = s.sec := by
  unfold State.setPower; split <;> simp
@[simp] theorem State.setPower_pins (s : State) (p : PowerState) : (s.setPower p).pins = s.pins := by
  unfold State.setPower; split <;> simp

/-! ### State.setLife -/

@[simp] theorem State.setLife_now (s : State) (l : Lifecycle) : (s.setLife l).now = s.now := by
  unfold State.setLife; split <;> simp
@[simp] theorem State.setLife_pending (s : State) (l : Lifecycle) : (s.setLife l).pending = s.pending := by
  unfold State.setLife; split <;> simp
@[simp] theorem State.setLife_freeCtr (s : State) (l : Lifecycle) : (s.setLife l).freeCtr = s.freeCtr := by
  unfold State.setLife; split <;> simp
@[simp] theorem State.setLife_mod (s : State) (l : Lifecycle) : (s.setLife l).mod = s.mod := by
  unfold State.setLife; split <;> simp
@[simp] theorem State.setLife_host (s : State) (l : Lifecycle) : (s.setLife l).host = s.host := by
  unfold State.setLife; split <;> simp
@[simp] theorem State.setLife_reqs (s : State) (l : Lifecycle) : (s.setLife l).reqs = s.reqs := by
  unfold State.setLife; split <;> simp
@[simp] theorem State.setLife_adm (s : State) (l : Lifecycle) : (s.setLife l).adm = s.adm := by
  unfold State.setLife; split <;> simp
@[simp] theorem State.setLife_pools (s : State) (l : Lifecycle) : (s.setLife l).pools = s.pools := by
  unfold State.setLife; split <;> simp
@[simp] theorem State.setLife_seq (s : State) (l : Lifecycle) : (s.setLife l).seq = s.seq := by
  unfold State.setLife; split <;> simp
@[simp] theorem State.setLife_step (s : State) (l : Lifecycle) : (s.setLife l).step = s.step := by
  unfold State.setLife; split <;> simp
@[simp] theorem State.setLife_cells (s : State) (l : Lifecycle) : (s.setLife l).cells = s.cells := by
  unfold State.setLife; split <;> simp
@[simp] theorem State.setLife_tiers (s : State) (l : Lifecycle) : (s.setLife l).tiers = s.tiers := by
  unfold State.setLife; split <;> simp
@[simp] theorem State.setLife_sweep (s : State) (l : Lifecycle) : (s.setLife l).sweep = s.sweep := by
  unfold State.setLife; split <;> simp
@[simp] theorem State.setLife_index (s : State) (l : Lifecycle) : (s.setLife l).index = s.index := by
  unfold State.setLife; split <;> simp
@[simp] theorem State.setLife_img (s : State) (l : Lifecycle) : (s.setLife l).img = s.img := by
  unfold State.setLife; split <;> simp
@[simp] theorem State.setLife_pool (s : State) (l : Lifecycle) : (s.setLife l).pool = s.pool := by
  unfold State.setLife; split <;> simp
@[simp] theorem State.setLife_fab (s : State) (l : Lifecycle) : (s.setLife l).fab = s.fab := by
  unfold State.setLife; split <;> simp
@[simp] theorem State.setLife_ptp (s : State) (l : Lifecycle) : (s.setLife l).ptp = s.ptp := by
  unfold State.setLife; split <;> simp
@[simp] theorem State.setLife_tx (s : State) (l : Lifecycle) : (s.setLife l).tx = s.tx := by
  unfold State.setLife; split <;> simp
@[simp] theorem State.setLife_pair (s : State) (l : Lifecycle) : (s.setLife l).pair = s.pair := by
  unfold State.setLife; split <;> simp
@[simp] theorem State.setLife_flash (s : State) (l : Lifecycle) : (s.setLife l).flash = s.flash := by
  unfold State.setLife; split <;> simp
@[simp] theorem State.setLife_faults (s : State) (l : Lifecycle) : (s.setLife l).faults = s.faults := by
  unfold State.setLife; split <;> simp
@[simp] theorem State.setLife_power (s : State) (l : Lifecycle) : (s.setLife l).power = s.power := by
  unfold State.setLife; split <;> simp
@[simp] theorem State.setLife_pins (s : State) (l : Lifecycle) : (s.setLife l).pins = s.pins := by
  unfold State.setLife; split <;> simp

/-! ### State.setDebug -/

@[simp] theorem State.setDebug_now (s : State) (d : DebugLevel) : (s.setDebug d).now = s.now := by
  unfold State.setDebug; split <;> simp
@[simp] theorem State.setDebug_pending (s : State) (d : DebugLevel) : (s.setDebug d).pending = s.pending := by
  unfold State.setDebug; split <;> simp
@[simp] theorem State.setDebug_freeCtr (s : State) (d : DebugLevel) : (s.setDebug d).freeCtr = s.freeCtr := by
  unfold State.setDebug; split <;> simp
@[simp] theorem State.setDebug_mod (s : State) (d : DebugLevel) : (s.setDebug d).mod = s.mod := by
  unfold State.setDebug; split <;> simp
@[simp] theorem State.setDebug_host (s : State) (d : DebugLevel) : (s.setDebug d).host = s.host := by
  unfold State.setDebug; split <;> simp
@[simp] theorem State.setDebug_reqs (s : State) (d : DebugLevel) : (s.setDebug d).reqs = s.reqs := by
  unfold State.setDebug; split <;> simp
@[simp] theorem State.setDebug_adm (s : State) (d : DebugLevel) : (s.setDebug d).adm = s.adm := by
  unfold State.setDebug; split <;> simp
@[simp] theorem State.setDebug_pools (s : State) (d : DebugLevel) : (s.setDebug d).pools = s.pools := by
  unfold State.setDebug; split <;> simp
@[simp] theorem State.setDebug_seq (s : State) (d : DebugLevel) : (s.setDebug d).seq = s.seq := by
  unfold State.setDebug; split <;> simp
@[simp] theorem State.setDebug_step (s : State) (d : DebugLevel) : (s.setDebug d).step = s.step := by
  unfold State.setDebug; split <;> simp
@[simp] theorem State.setDebug_cells (s : State) (d : DebugLevel) : (s.setDebug d).cells = s.cells := by
  unfold State.setDebug; split <;> simp
@[simp] theorem State.setDebug_tiers (s : State) (d : DebugLevel) : (s.setDebug d).tiers = s.tiers := by
  unfold State.setDebug; split <;> simp
@[simp] theorem State.setDebug_sweep (s : State) (d : DebugLevel) : (s.setDebug d).sweep = s.sweep := by
  unfold State.setDebug; split <;> simp
@[simp] theorem State.setDebug_index (s : State) (d : DebugLevel) : (s.setDebug d).index = s.index := by
  unfold State.setDebug; split <;> simp
@[simp] theorem State.setDebug_img (s : State) (d : DebugLevel) : (s.setDebug d).img = s.img := by
  unfold State.setDebug; split <;> simp
@[simp] theorem State.setDebug_pool (s : State) (d : DebugLevel) : (s.setDebug d).pool = s.pool := by
  unfold State.setDebug; split <;> simp
@[simp] theorem State.setDebug_fab (s : State) (d : DebugLevel) : (s.setDebug d).fab = s.fab := by
  unfold State.setDebug; split <;> simp
@[simp] theorem State.setDebug_ptp (s : State) (d : DebugLevel) : (s.setDebug d).ptp = s.ptp := by
  unfold State.setDebug; split <;> simp
@[simp] theorem State.setDebug_tx (s : State) (d : DebugLevel) : (s.setDebug d).tx = s.tx := by
  unfold State.setDebug; split <;> simp
@[simp] theorem State.setDebug_pair (s : State) (d : DebugLevel) : (s.setDebug d).pair = s.pair := by
  unfold State.setDebug; split <;> simp
@[simp] theorem State.setDebug_flash (s : State) (d : DebugLevel) : (s.setDebug d).flash = s.flash := by
  unfold State.setDebug; split <;> simp
@[simp] theorem State.setDebug_faults (s : State) (d : DebugLevel) : (s.setDebug d).faults = s.faults := by
  unfold State.setDebug; split <;> simp
@[simp] theorem State.setDebug_power (s : State) (d : DebugLevel) : (s.setDebug d).power = s.power := by
  unfold State.setDebug; split <;> simp
@[simp] theorem State.setDebug_pins (s : State) (d : DebugLevel) : (s.setDebug d).pins = s.pins := by
  unfold State.setDebug; split <;> simp

/-! ### State.setTime -/

@[simp] theorem State.setTime_now (s : State) (p : TimeState) : (s.setTime p).now = s.now := by
  unfold State.setTime; split <;> simp
@[simp] theorem State.setTime_pending (s : State) (p : TimeState) : (s.setTime p).pending = s.pending := by
  unfold State.setTime; split <;> simp
@[simp] theorem State.setTime_freeCtr (s : State) (p : TimeState) : (s.setTime p).freeCtr = s.freeCtr := by
  unfold State.setTime; split <;> simp
@[simp] theorem State.setTime_mod (s : State) (p : TimeState) : (s.setTime p).mod = s.mod := by
  unfold State.setTime; split <;> simp
@[simp] theorem State.setTime_host (s : State) (p : TimeState) : (s.setTime p).host = s.host := by
  unfold State.setTime; split <;> simp
@[simp] theorem State.setTime_reqs (s : State) (p : TimeState) : (s.setTime p).reqs = s.reqs := by
  unfold State.setTime; split <;> simp
@[simp] theorem State.setTime_adm (s : State) (p : TimeState) : (s.setTime p).adm = s.adm := by
  unfold State.setTime; split <;> simp
@[simp] theorem State.setTime_pools (s : State) (p : TimeState) : (s.setTime p).pools = s.pools := by
  unfold State.setTime; split <;> simp
@[simp] theorem State.setTime_seq (s : State) (p : TimeState) : (s.setTime p).seq = s.seq := by
  unfold State.setTime; split <;> simp
@[simp] theorem State.setTime_step (s : State) (p : TimeState) : (s.setTime p).step = s.step := by
  unfold State.setTime; split <;> simp
@[simp] theorem State.setTime_cells (s : State) (p : TimeState) : (s.setTime p).cells = s.cells := by
  unfold State.setTime; split <;> simp
@[simp] theorem State.setTime_tiers (s : State) (p : TimeState) : (s.setTime p).tiers = s.tiers := by
  unfold State.setTime; split <;> simp
@[simp] theorem State.setTime_sweep (s : State) (p : TimeState) : (s.setTime p).sweep = s.sweep := by
  unfold State.setTime; split <;> simp
@[simp] theorem State.setTime_index (s : State) (p : TimeState) : (s.setTime p).index = s.index := by
  unfold State.setTime; split <;> simp
@[simp] theorem State.setTime_img (s : State) (p : TimeState) : (s.setTime p).img = s.img := by
  unfold State.setTime; split <;> simp
@[simp] theorem State.setTime_pool (s : State) (p : TimeState) : (s.setTime p).pool = s.pool := by
  unfold State.setTime; split <;> simp
@[simp] theorem State.setTime_fab (s : State) (p : TimeState) : (s.setTime p).fab = s.fab := by
  unfold State.setTime; split <;> simp
@[simp] theorem State.setTime_tx (s : State) (p : TimeState) : (s.setTime p).tx = s.tx := by
  unfold State.setTime; split <;> simp
@[simp] theorem State.setTime_pair (s : State) (p : TimeState) : (s.setTime p).pair = s.pair := by
  unfold State.setTime; split <;> simp
@[simp] theorem State.setTime_flash (s : State) (p : TimeState) : (s.setTime p).flash = s.flash := by
  unfold State.setTime; split <;> simp
@[simp] theorem State.setTime_faults (s : State) (p : TimeState) : (s.setTime p).faults = s.faults := by
  unfold State.setTime; split <;> simp
@[simp] theorem State.setTime_power (s : State) (p : TimeState) : (s.setTime p).power = s.power := by
  unfold State.setTime; split <;> simp
@[simp] theorem State.setTime_sec (s : State) (p : TimeState) : (s.setTime p).sec = s.sec := by
  unfold State.setTime; split <;> simp

/-! ### State.setPair -/

@[simp] theorem State.setPair_now (s : State) (p : PairState) : (s.setPair p).now = s.now := by
  unfold State.setPair; split <;> simp
@[simp] theorem State.setPair_pending (s : State) (p : PairState) : (s.setPair p).pending = s.pending := by
  unfold State.setPair; split <;> simp
@[simp] theorem State.setPair_freeCtr (s : State) (p : PairState) : (s.setPair p).freeCtr = s.freeCtr := by
  unfold State.setPair; split <;> simp
@[simp] theorem State.setPair_mod (s : State) (p : PairState) : (s.setPair p).mod = s.mod := by
  unfold State.setPair; split <;> simp
@[simp] theorem State.setPair_host (s : State) (p : PairState) : (s.setPair p).host = s.host := by
  unfold State.setPair; split <;> simp
@[simp] theorem State.setPair_reqs (s : State) (p : PairState) : (s.setPair p).reqs = s.reqs := by
  unfold State.setPair; split <;> simp
@[simp] theorem State.setPair_adm (s : State) (p : PairState) : (s.setPair p).adm = s.adm := by
  unfold State.setPair; split <;> simp
@[simp] theorem State.setPair_pools (s : State) (p : PairState) : (s.setPair p).pools = s.pools := by
  unfold State.setPair; split <;> simp
@[simp] theorem State.setPair_seq (s : State) (p : PairState) : (s.setPair p).seq = s.seq := by
  unfold State.setPair; split <;> simp
@[simp] theorem State.setPair_step (s : State) (p : PairState) : (s.setPair p).step = s.step := by
  unfold State.setPair; split <;> simp
@[simp] theorem State.setPair_cells (s : State) (p : PairState) : (s.setPair p).cells = s.cells := by
  unfold State.setPair; split <;> simp
@[simp] theorem State.setPair_tiers (s : State) (p : PairState) : (s.setPair p).tiers = s.tiers := by
  unfold State.setPair; split <;> simp
@[simp] theorem State.setPair_sweep (s : State) (p : PairState) : (s.setPair p).sweep = s.sweep := by
  unfold State.setPair; split <;> simp
@[simp] theorem State.setPair_index (s : State) (p : PairState) : (s.setPair p).index = s.index := by
  unfold State.setPair; split <;> simp
@[simp] theorem State.setPair_img (s : State) (p : PairState) : (s.setPair p).img = s.img := by
  unfold State.setPair; split <;> simp
@[simp] theorem State.setPair_pool (s : State) (p : PairState) : (s.setPair p).pool = s.pool := by
  unfold State.setPair; split <;> simp
@[simp] theorem State.setPair_fab (s : State) (p : PairState) : (s.setPair p).fab = s.fab := by
  unfold State.setPair; split <;> simp
@[simp] theorem State.setPair_ptp (s : State) (p : PairState) : (s.setPair p).ptp = s.ptp := by
  unfold State.setPair; split <;> simp
@[simp] theorem State.setPair_tx (s : State) (p : PairState) : (s.setPair p).tx = s.tx := by
  unfold State.setPair; split <;> simp
@[simp] theorem State.setPair_flash (s : State) (p : PairState) : (s.setPair p).flash = s.flash := by
  unfold State.setPair; split <;> simp
@[simp] theorem State.setPair_faults (s : State) (p : PairState) : (s.setPair p).faults = s.faults := by
  unfold State.setPair; split <;> simp
@[simp] theorem State.setPair_power (s : State) (p : PairState) : (s.setPair p).power = s.power := by
  unfold State.setPair; split <;> simp
@[simp] theorem State.setPair_sec (s : State) (p : PairState) : (s.setPair p).sec = s.sec := by
  unfold State.setPair; split <;> simp
@[simp] theorem State.setPair_pins (s : State) (p : PairState) : (s.setPair p).pins = s.pins := by
  unfold State.setPair; split <;> simp

/-! ### State.alert -/

@[simp] theorem State.alert_now (s : State) : (s.alert).now = s.now := rfl
@[simp] theorem State.alert_pending (s : State) : (s.alert).pending = s.pending := rfl
@[simp] theorem State.alert_freeCtr (s : State) : (s.alert).freeCtr = s.freeCtr := rfl
@[simp] theorem State.alert_out (s : State) : (s.alert).out = s.out := rfl
@[simp] theorem State.alert_mod (s : State) : (s.alert).mod = s.mod := rfl
@[simp] theorem State.alert_dict (s : State) : (s.alert).dict = s.dict := rfl
@[simp] theorem State.alert_host (s : State) : (s.alert).host = s.host := rfl
@[simp] theorem State.alert_reqs (s : State) : (s.alert).reqs = s.reqs := rfl
@[simp] theorem State.alert_adm (s : State) : (s.alert).adm = s.adm := rfl
@[simp] theorem State.alert_pools (s : State) : (s.alert).pools = s.pools := rfl
@[simp] theorem State.alert_seq (s : State) : (s.alert).seq = s.seq := rfl
@[simp] theorem State.alert_step (s : State) : (s.alert).step = s.step := rfl
@[simp] theorem State.alert_cells (s : State) : (s.alert).cells = s.cells := rfl
@[simp] theorem State.alert_tiers (s : State) : (s.alert).tiers = s.tiers := rfl
@[simp] theorem State.alert_sweep (s : State) : (s.alert).sweep = s.sweep := rfl
@[simp] theorem State.alert_index (s : State) : (s.alert).index = s.index := rfl
@[simp] theorem State.alert_img (s : State) : (s.alert).img = s.img := rfl
@[simp] theorem State.alert_pool (s : State) : (s.alert).pool = s.pool := rfl
@[simp] theorem State.alert_fab (s : State) : (s.alert).fab = s.fab := rfl
@[simp] theorem State.alert_ptp (s : State) : (s.alert).ptp = s.ptp := rfl
@[simp] theorem State.alert_tx (s : State) : (s.alert).tx = s.tx := rfl
@[simp] theorem State.alert_pair (s : State) : (s.alert).pair = s.pair := rfl
@[simp] theorem State.alert_flash (s : State) : (s.alert).flash = s.flash := rfl
@[simp] theorem State.alert_faults (s : State) : (s.alert).faults = s.faults := rfl
@[simp] theorem State.alert_power (s : State) : (s.alert).power = s.power := rfl
@[simp] theorem State.alert_sec (s : State) : (s.alert).sec = s.sec := rfl

/-! ### State.notice -/

@[simp] theorem State.notice_now (s : State) (f : Nat) (w : BitVec 128) : (s.notice f w).now = s.now := rfl
@[simp] theorem State.notice_pending (s : State) (f : Nat) (w : BitVec 128) : (s.notice f w).pending = s.pending := rfl
@[simp] theorem State.notice_freeCtr (s : State) (f : Nat) (w : BitVec 128) : (s.notice f w).freeCtr = s.freeCtr := rfl
@[simp] theorem State.notice_out (s : State) (f : Nat) (w : BitVec 128) : (s.notice f w).out = s.out := rfl
@[simp] theorem State.notice_mod (s : State) (f : Nat) (w : BitVec 128) : (s.notice f w).mod = s.mod := rfl
@[simp] theorem State.notice_dict (s : State) (f : Nat) (w : BitVec 128) : (s.notice f w).dict = s.dict := rfl
@[simp] theorem State.notice_host (s : State) (f : Nat) (w : BitVec 128) : (s.notice f w).host = s.host := rfl
@[simp] theorem State.notice_reqs (s : State) (f : Nat) (w : BitVec 128) : (s.notice f w).reqs = s.reqs := rfl
@[simp] theorem State.notice_adm (s : State) (f : Nat) (w : BitVec 128) : (s.notice f w).adm = s.adm := rfl
@[simp] theorem State.notice_pools (s : State) (f : Nat) (w : BitVec 128) : (s.notice f w).pools = s.pools := rfl
@[simp] theorem State.notice_seq (s : State) (f : Nat) (w : BitVec 128) : (s.notice f w).seq = s.seq := rfl
@[simp] theorem State.notice_cells (s : State) (f : Nat) (w : BitVec 128) : (s.notice f w).cells = s.cells := rfl
@[simp] theorem State.notice_tiers (s : State) (f : Nat) (w : BitVec 128) : (s.notice f w).tiers = s.tiers := rfl
@[simp] theorem State.notice_sweep (s : State) (f : Nat) (w : BitVec 128) : (s.notice f w).sweep = s.sweep := rfl
@[simp] theorem State.notice_index (s : State) (f : Nat) (w : BitVec 128) : (s.notice f w).index = s.index := rfl
@[simp] theorem State.notice_img (s : State) (f : Nat) (w : BitVec 128) : (s.notice f w).img = s.img := rfl
@[simp] theorem State.notice_pool (s : State) (f : Nat) (w : BitVec 128) : (s.notice f w).pool = s.pool := rfl
@[simp] theorem State.notice_fab (s : State) (f : Nat) (w : BitVec 128) : (s.notice f w).fab = s.fab := rfl
@[simp] theorem State.notice_ptp (s : State) (f : Nat) (w : BitVec 128) : (s.notice f w).ptp = s.ptp := rfl
@[simp] theorem State.notice_tx (s : State) (f : Nat) (w : BitVec 128) : (s.notice f w).tx = s.tx := rfl
@[simp] theorem State.notice_pair (s : State) (f : Nat) (w : BitVec 128) : (s.notice f w).pair = s.pair := rfl
@[simp] theorem State.notice_flash (s : State) (f : Nat) (w : BitVec 128) : (s.notice f w).flash = s.flash := rfl
@[simp] theorem State.notice_faults (s : State) (f : Nat) (w : BitVec 128) : (s.notice f w).faults = s.faults := rfl
@[simp] theorem State.notice_power (s : State) (f : Nat) (w : BitVec 128) : (s.notice f w).power = s.power := rfl
@[simp] theorem State.notice_sec (s : State) (f : Nat) (w : BitVec 128) : (s.notice f w).sec = s.sec := rfl
@[simp] theorem State.notice_pins (s : State) (f : Nat) (w : BitVec 128) : (s.notice f w).pins = s.pins := rfl

/-! ### State.pendEntry -/

@[simp] theorem State.pendEntry_now (s : State) (r n : Nat) (p : StreamPart) : (s.pendEntry r n p).now = s.now := rfl
@[simp] theorem State.pendEntry_pending (s : State) (r n : Nat) (p : StreamPart) :
    (s.pendEntry r n p).pending = s.pending := rfl
@[simp] theorem State.pendEntry_freeCtr (s : State) (r n : Nat) (p : StreamPart) :
    (s.pendEntry r n p).freeCtr = s.freeCtr := rfl
@[simp] theorem State.pendEntry_out (s : State) (r n : Nat) (p : StreamPart) : (s.pendEntry r n p).out = s.out := rfl
@[simp] theorem State.pendEntry_mod (s : State) (r n : Nat) (p : StreamPart) : (s.pendEntry r n p).mod = s.mod := rfl
@[simp] theorem State.pendEntry_dict (s : State) (r n : Nat) (p : StreamPart) : (s.pendEntry r n p).dict = s.dict := rfl
@[simp] theorem State.pendEntry_host (s : State) (r n : Nat) (p : StreamPart) : (s.pendEntry r n p).host = s.host := rfl
@[simp] theorem State.pendEntry_reqs (s : State) (r n : Nat) (p : StreamPart) : (s.pendEntry r n p).reqs = s.reqs := rfl
@[simp] theorem State.pendEntry_adm (s : State) (r n : Nat) (p : StreamPart) : (s.pendEntry r n p).adm = s.adm := rfl
@[simp] theorem State.pendEntry_pools (s : State) (r n : Nat) (p : StreamPart) : (s.pendEntry r n p).pools = s.pools := rfl
@[simp] theorem State.pendEntry_seq (s : State) (r n : Nat) (p : StreamPart) : (s.pendEntry r n p).seq = s.seq := rfl
@[simp] theorem State.pendEntry_cells (s : State) (r n : Nat) (p : StreamPart) : (s.pendEntry r n p).cells = s.cells := rfl
@[simp] theorem State.pendEntry_tiers (s : State) (r n : Nat) (p : StreamPart) : (s.pendEntry r n p).tiers = s.tiers := rfl
@[simp] theorem State.pendEntry_sweep (s : State) (r n : Nat) (p : StreamPart) : (s.pendEntry r n p).sweep = s.sweep := rfl
@[simp] theorem State.pendEntry_index (s : State) (r n : Nat) (p : StreamPart) : (s.pendEntry r n p).index = s.index := rfl
@[simp] theorem State.pendEntry_img (s : State) (r n : Nat) (p : StreamPart) : (s.pendEntry r n p).img = s.img := rfl
@[simp] theorem State.pendEntry_pool (s : State) (r n : Nat) (p : StreamPart) : (s.pendEntry r n p).pool = s.pool := rfl
@[simp] theorem State.pendEntry_fab (s : State) (r n : Nat) (p : StreamPart) : (s.pendEntry r n p).fab = s.fab := rfl
@[simp] theorem State.pendEntry_ptp (s : State) (r n : Nat) (p : StreamPart) : (s.pendEntry r n p).ptp = s.ptp := rfl
@[simp] theorem State.pendEntry_tx (s : State) (r n : Nat) (p : StreamPart) : (s.pendEntry r n p).tx = s.tx := rfl
@[simp] theorem State.pendEntry_pair (s : State) (r n : Nat) (p : StreamPart) : (s.pendEntry r n p).pair = s.pair := rfl
@[simp] theorem State.pendEntry_flash (s : State) (r n : Nat) (p : StreamPart) : (s.pendEntry r n p).flash = s.flash := rfl
@[simp] theorem State.pendEntry_faults (s : State) (r n : Nat) (p : StreamPart) : (s.pendEntry r n p).faults = s.faults := rfl
@[simp] theorem State.pendEntry_power (s : State) (r n : Nat) (p : StreamPart) : (s.pendEntry r n p).power = s.power := rfl
@[simp] theorem State.pendEntry_sec (s : State) (r n : Nat) (p : StreamPart) : (s.pendEntry r n p).sec = s.sec := rfl
@[simp] theorem State.pendEntry_pins (s : State) (r n : Nat) (p : StreamPart) : (s.pendEntry r n p).pins = s.pins := rfl

/-! ### State.record -/

@[simp] theorem State.record_now (s : State) (k l a u n m : Nat) (o : Status) (d : Nat) :
    (s.record k l a u n m o d).now = s.now := by
  simp [State.record, State.hotPages]
@[simp] theorem State.record_pending (s : State) (k l a u n m : Nat) (o : Status) (d : Nat) :
    (s.record k l a u n m o d).pending = s.pending := by
  simp [State.record, State.hotPages]
@[simp] theorem State.record_freeCtr (s : State) (k l a u n m : Nat) (o : Status) (d : Nat) :
    (s.record k l a u n m o d).freeCtr = s.freeCtr := by
  simp [State.record, State.hotPages]
@[simp] theorem State.record_mod (s : State) (k l a u n m : Nat) (o : Status) (d : Nat) :
    (s.record k l a u n m o d).mod = s.mod := by
  simp [State.record, State.hotPages]
@[simp] theorem State.record_host (s : State) (k l a u n m : Nat) (o : Status) (d : Nat) :
    (s.record k l a u n m o d).host = s.host := by
  simp [State.record, State.hotPages]
@[simp] theorem State.record_reqs (s : State) (k l a u n m : Nat) (o : Status) (d : Nat) :
    (s.record k l a u n m o d).reqs = s.reqs := by
  simp [State.record, State.hotPages]
@[simp] theorem State.record_adm (s : State) (k l a u n m : Nat) (o : Status) (d : Nat) :
    (s.record k l a u n m o d).adm = s.adm := by
  simp [State.record, State.hotPages]
@[simp] theorem State.record_pools (s : State) (k l a u n m : Nat) (o : Status) (d : Nat) :
    (s.record k l a u n m o d).pools = s.pools := by
  simp [State.record, State.hotPages]
@[simp] theorem State.record_seq (s : State) (k l a u n m : Nat) (o : Status) (d : Nat) :
    (s.record k l a u n m o d).seq = s.seq := by
  simp [State.record, State.hotPages]
@[simp] theorem State.record_step (s : State) (k l a u n m : Nat) (o : Status) (d : Nat) :
    (s.record k l a u n m o d).step = s.step := by
  simp [State.record, State.hotPages]
@[simp] theorem State.record_cells (s : State) (k l a u n m : Nat) (o : Status) (d : Nat) :
    (s.record k l a u n m o d).cells = s.cells := by
  simp [State.record, State.hotPages]
@[simp] theorem State.record_tiers (s : State) (k l a u n m : Nat) (o : Status) (d : Nat) :
    (s.record k l a u n m o d).tiers = s.tiers := by
  simp [State.record, State.hotPages]
@[simp] theorem State.record_sweep (s : State) (k l a u n m : Nat) (o : Status) (d : Nat) :
    (s.record k l a u n m o d).sweep = s.sweep := by
  simp [State.record, State.hotPages]
@[simp] theorem State.record_index (s : State) (k l a u n m : Nat) (o : Status) (d : Nat) :
    (s.record k l a u n m o d).index = s.index := by
  simp [State.record, State.hotPages]
@[simp] theorem State.record_img (s : State) (k l a u n m : Nat) (o : Status) (d : Nat) :
    (s.record k l a u n m o d).img = s.img := by
  simp [State.record, State.hotPages]
@[simp] theorem State.record_pool (s : State) (k l a u n m : Nat) (o : Status) (d : Nat) :
    (s.record k l a u n m o d).pool = s.pool := by
  simp [State.record, State.hotPages]
@[simp] theorem State.record_fab (s : State) (k l a u n m : Nat) (o : Status) (d : Nat) :
    (s.record k l a u n m o d).fab = s.fab := by
  simp [State.record, State.hotPages]
@[simp] theorem State.record_ptp (s : State) (k l a u n m : Nat) (o : Status) (d : Nat) :
    (s.record k l a u n m o d).ptp = s.ptp := by
  simp [State.record, State.hotPages]
@[simp] theorem State.record_tx (s : State) (k l a u n m : Nat) (o : Status) (d : Nat) :
    (s.record k l a u n m o d).tx = s.tx := by
  simp [State.record, State.hotPages]
@[simp] theorem State.record_pair (s : State) (k l a u n m : Nat) (o : Status) (d : Nat) :
    (s.record k l a u n m o d).pair = s.pair := by
  simp [State.record, State.hotPages]
@[simp] theorem State.record_power (s : State) (k l a u n m : Nat) (o : Status) (d : Nat) :
    (s.record k l a u n m o d).power = s.power := by
  simp [State.record, State.hotPages]
@[simp] theorem State.record_sec (s : State) (k l a u n m : Nat) (o : Status) (d : Nat) :
    (s.record k l a u n m o d).sec = s.sec := by
  simp [State.record, State.hotPages]
@[simp] theorem State.record_pins (s : State) (k l a u n m : Nat) (o : Status) (d : Nat) :
    (s.record k l a u n m o d).pins = s.pins := by
  simp [State.record, State.hotPages]

end Sys2Proof.Machine
end

