-- ==== Sys2Proof/Laws/Ops.lean ====
section
/-!
SUPPORT. What the shared operations do: lists by index and by key, function registers, dictionary values and counters, requests,
slots.
-/
namespace Sys2Proof.Machine

/-! ### Lists -/

theorem modAt_length {α : Type} (l : List α) (i : Nat) (f : α → α) : (modAt l i f).length = l.length := by
  induction l generalizing i with
  | nil => rfl
  | cons a l ih => cases i <;> simp [modAt, ih]

/-- What `modAt` changes: the element at its index, where there is one. -/
theorem modAt_getD {α : Type} (l : List α) (i j : Nat) (f : α → α) (d : α) :
    (modAt l i f).getD j d = if j = i ∧ i < l.length then f (l.getD i d) else l.getD j d := by
  induction l generalizing i j with
  | nil => simp [modAt]
  | cons a l ih => cases i <;> cases j <;> simp_all [modAt]

/-- What `setKey` changes: the value at its key. -/
theorem getKey_setKey {α : Type} (l : List (Nat × α)) (k j : Nat) (v : α) :
    getKey (setKey l k v) j = if j = k then some v else getKey l j := by
  induction l with
  | nil => by_cases h : k = j <;> simp [setKey, getKey, h, eq_comm]
  | cons a l ih =>
    obtain ⟨a, w⟩ := a
    by_cases h : a = k
    · subst h; by_cases h2 : a = j <;> simp [setKey, getKey, h2, eq_comm (a := j)]
    · by_cases h2 : a = j
      · subst h2; simp [setKey, getKey, h]
      · simp [setKey, getKey, h, ih, h2]

theorem lookupD_setKey (l : List (Nat × Nat)) (k j v d : Nat) :
    lookupD (setKey l k v) j d = if j = k then v else lookupD l j d := by
  induction l with
  | nil => by_cases h : k = j <;> simp [setKey, lookupD, h, eq_comm]
  | cons a l ih =>
    obtain ⟨a, w⟩ := a
    by_cases h : a = k
    · subst h; by_cases h2 : a = j <;> simp [setKey, lookupD, h2, eq_comm (a := j)]
    · by_cases h2 : a = j
      · subst h2; simp [setKey, lookupD, h]
      · simp [setKey, lookupD, h, ih, h2]

/-- What `takeFree` gives is not among the used numbers. -/
theorem takeFree_free {used : List Nat} {fuel n k x : Nat} (h : x ∈ takeFree used fuel n k) : used.contains x = false := by
  induction fuel generalizing n k with
  | zero => simp [takeFree] at h
  | succ fuel ih =>
    cases n with
    | zero => simp [takeFree] at h
    | succ n =>
      by_cases c : used.contains k = true
      · rw [takeFree, if_pos c] at h; exact ih h
      · rw [takeFree, if_neg c] at h
        rcases List.mem_cons.mp h with rfl | h
        · simpa using c
        · exact ih h

/-! ### Function registers -/

@[simp] theorem State.modFn_fn (s : State) (f h : Nat) (g : Fn → Fn) :
    (s.modFn f g).fn h = if h = f ∧ f < s.host.fns.length then g (s.fn f) else s.fn h := by
  simp only [State.fn, State.modFn, modAt_getD]

@[simp] theorem State.modFn_length (s : State) (f : Nat) (g : Fn → Fn) :
    (s.modFn f g).host.fns.length = s.host.fns.length := by simp [State.modFn, modAt_length]

@[simp] theorem State.modFn_vfEnable (s : State) (f : Nat) (g : Fn → Fn) : (s.modFn f g).host.vfEnable = s.host.vfEnable := rfl
@[simp] theorem State.modFn_numVfs (s : State) (f : Nat) (g : Fn → Fn) : (s.modFn f g).host.numVfs = s.host.numVfs := rfl
@[simp] theorem State.modFn_fnExists (s : State) (f h : Nat) (g : Fn → Fn) : (s.modFn f g).fnExists h = s.fnExists h := rfl
@[simp] theorem State.tick_fnExists (s : State) (t h : Nat) : (s.tick t).fnExists h = s.fnExists h := rfl
@[simp] theorem State.tick_fn (s : State) (t h : Nat) : (s.tick t).fn h = s.fn h := rfl
@[simp] theorem State.emit_fn (s : State) (o : Output) (h : Nat) : (s.emit o).fn h = s.fn h := rfl
@[simp] theorem State.setEntry_fn (s : State) (k v h : Nat) : (s.setEntry k v).fn h = s.fn h := rfl
@[simp] theorem State.count_fn (s : State) (k n h : Nat) : (s.count k n).fn h = s.fn h := by simp [State.fn]
@[simp] theorem State.count_fnExists (s : State) (k n h : Nat) : (s.count k n).fnExists h = s.fnExists h := by
  simp [State.fnExists]

/-! ### Dictionary values -/

@[simp] theorem State.tick_entry (s : State) (t k : Nat) : (s.tick t).entry k = s.entry k := rfl
@[simp] theorem State.emit_entry (s : State) (o : Output) (k : Nat) : (s.emit o).entry k = s.entry k := rfl
@[simp] theorem State.modFn_entry (s : State) (f k : Nat) (g : Fn → Fn) : (s.modFn f g).entry k = s.entry k := rfl
@[simp] theorem State.modReq_entry (s : State) (f a k : Nat) (g : Request → Request) : (s.modReq f a g).entry k = s.entry k := rfl
@[simp] theorem State.modSlot_entry (s : State) (n k : Nat) (g : SeqEntry → SeqEntry) : (s.modSlot n g).entry k = s.entry k := rfl

@[simp] theorem State.setEntry_entry (s : State) (k j v : Nat) :
    (s.setEntry k v).entry j = if j = k then v else s.entry j := by
  simp only [State.entry, State.setEntry, lookupD_setKey]

@[simp] theorem State.count_entry (s : State) (k j n : Nat) :
    (s.count k n).entry j = if j = k then s.entry k + n else s.entry j := by
  unfold State.count; split <;> simp_all

/-! ### Time -/

@[simp] theorem State.tick_now (s : State) (t : Nat) : (s.tick t).now = max s.now t := rfl

/-! ### Requests and slots -/

/-- A request changed by its own key is found changed. -/
theorem State.modReq_req (s : State) (f a : Nat) (g : Request → Request) (h : ∀ r, (g r).fn = r.fn ∧ (g r).tag = r.tag) :
    (s.modReq f a g).req f a = (s.req f a).map g := by
  simp only [State.req, State.modReq]
  induction s.reqs with
  | nil => rfl
  | cons r l ih =>
    by_cases hr : r.fn = f ∧ r.tag = a
    · have := h r
      simp [List.map_cons, hr.1, hr.2, this.1, this.2]
    · have hr' : (decide (r.fn = f) && decide (r.tag = a)) = false := by
        rw [← Bool.decide_and, decide_eq_false_iff_not]; exact hr
      rw [List.map_cons, if_neg (by simp [hr']), List.find?_cons, List.find?_cons, hr']
      exact ih

@[simp] theorem State.tick_req (s : State) (t f a : Nat) : (s.tick t).req f a = s.req f a := rfl
@[simp] theorem State.emit_req (s : State) (o : Output) (f a : Nat) : (s.emit o).req f a = s.req f a := rfl
@[simp] theorem State.count_req (s : State) (k n f a : Nat) : (s.count k n).req f a = s.req f a := by simp [State.req]
@[simp] theorem State.tick_slot (s : State) (t n : Nat) : (s.tick t).slot n = s.slot n := rfl

@[simp] theorem State.modSlot_slot (s : State) (n m : Nat) (g : SeqEntry → SeqEntry) :
    (s.modSlot n g).slot m = if m = n then g (s.slot n) else s.slot m := by
  simp only [State.slot, State.modSlot, getKey_setKey]; split <;> simp_all

end Sys2Proof.Machine
end

