-- ==== Sys2Proof/Tests/Slice0.lean ====
section
/-!
SUPPORT. Tests of the model: ill-formed commands, one witness per hypothesis and clause of the statements, and the manual's
worked examples. Every `witness_X` meets the hypotheses of the clauses of `Obligations.X` in small states built here.
-/
namespace Sys2Proof.Tests
open Sys2Proof Sys2Proof.Machine

set_option maxRecDepth 20000
set_option Elab.async false

/-! ### Small states -/

/-- A field map from (lowest bit, value) pairs. -/
def word (n : Nat) (l : List (Nat × Nat)) : BitVec n := BitVec.ofNat n (l.map fun p => p.2 * 2 ^ p.1).sum

/-- Function 0 with ring 0 holding one descriptor, its completion and step batch rings, and one window. -/
def fn0 : Fn := { subs := [{ base := 0x10000, size := 6, enable := true, tail := 1 }, {}, {}, {}]
                  cpl := { base := 0x20000, size := 6, enable := true }, sbr := { base := 0x40000, size := 16, enable := true }
                  wins := { base := 0, len := 0x1000 } :: List.replicate 15 {} }

/-- An encoder. -/
def encoder : ModelRes := { slot := 1, digest := 0, vocab := 1, img := { modelId := 2, kind := 3, resident := true, vocab := 1, contextMax := 64, embedDim := 4, rotations := [1] } }

/-- A resident model. -/
def mainModel : ModelRes := { slot := 0, digest := 7, vocab := 1, imageId := 3, img := { modelId := 1, kind := 1, resident := true, vocab := 1, contextMax := 4096, specDepthMax := 3, draftId := 9, endCount := 1, endTokens := [255] } }

/-- 256 byte tokens. -/
def vocab : VocabRes := { slot := 0, copy_ := 1, digest := 0, img := { vocabId := 1, tokenCount := 256, poolBytes := 256, pairBits := 10, maxProbe := 1, splitMode := 0, replId := 0, byteMap := List.range 256, ids := (List.range 256).map fun i => BitVec.ofNat 64 (2 ^ 62 + 2 ^ 55 + i), bytes := (List.range 256).map (BitVec.ofNat 8), slots := [] } }

/-- A template: user text, then passages without frame tokens. -/
def template : TemplateRes := { copy_ := 1, vocab := 1, digest := 0, img := { templateId := 4, vocab := 1, segCount := 2, fixedTok := 0, returnRetr := false, segs := [2 * 2 ^ 60 + 64 * 2 ^ 32, 3 * 2 ^ 60], body := [] } }

/-- An index version of four records of 256 bits, all live. -/
def index : IndexVer := { vocab := 1, digest := 5, imageId := 6, bytes := 1000, img := { format := 0, shardId := 1, recordCount := 4, version := 5, rotationId := 1, vecDim := 4, passageMax := 16, passageVocab := 1, records := (List.range 4).map fun i => ⟨i, i, 1⟩ } }

/-- A module that serves: function 0 as above, the time base held, 1 MiB of scratch for function 0, images resident, sweeps scheduled every 12 ms. -/
def serving : State := { State.reset with
  now := 1000000
  mod := { State.reset.mod with op := .serving }
  host := { State.reset.host with fns := fn0 :: List.replicate 63 {} }
  dict := { State.reset.dict with held := (List.range 64).map fun f => (perFn 0x6012 f, if f = 0 then 1 else 0) }
  ptp := { state := .locked }
  img := { models := [mainModel, encoder], vocabs := [vocab], templates := [template] }
  index := { live := [index] }
  sweep := { segs := [(0, 12000000, 12000000)] } }

/-- A descriptor with a tag, payload and result buffers of 4 KiB. -/
def desc (op cls pay text res : Nat) : Fetched := ⟨mkDesc op cls 0 0 0 0 0 77 0 (if pay = 0 then 0 else 0x1000) pay text (if res = 0 then 0 else 0x2000) res, []⟩

/-- The request that function 0 makes of a descriptor. -/
def reqOf (x : Fetched) : Request := requestOf (serving.tick 0) 0 0 x.desc

/-- The state in which its row's own part begins. -/
def after (x : Fetched) : State := fetchFrom (serving.tick 0) 0 0 x.desc

/-- What makes a descriptor row take its request. -/
theorem takes {s : State} {t op f r : Nat} {x : Fetched} {d : Bool} (h : nextFetch (s.tick t) = some (f, r))
    (k : checks16 (fetchFrom (s.tick t) f r x.desc) f op x d = none) :
    s.TakesRow t op x d (requestOf (s.tick t) f r x.desc) (fetchFrom (s.tick t) f r x.desc) := ⟨f, r, h, rfl, rfl, k⟩

/-- What makes a message reach its session. -/
theorem delivers {s : State} {t msg cls : Nat} {h : BitVec 256} {y : Session} (a : (s.tick t).addressed h = true)
    (b : (s.tick t).sessionFor h = some y) (c : y.rxSeq.getD (hClass h) 0 = hTseq h) (d : hdrOk msg cls h = true) (e : cls < 6) :
    s.Delivers t msg cls h (advanceSeq y cls) (((s.tick t).heard (hSrc h)).modSession y.idx fun z => advanceSeq z cls) :=
  ⟨y, a, b, c, d, e, rfl, rfl⟩


/-- The command's next state passes `g`. -/
def gives (i : Instr) (s : State) (g : State → Bool) : Bool :=
  match exec i s with
  | .next t => g t
  | _ => false
/-! ### Ill-formed commands (WellFormed) -/

/-- A time, a function, a ring, a tag, a vector, a port, a lane, a session, a model slot, a sequence slot beyond their widths. -/
theorem test_wf_refuses_numbers : (Instr.slateClose (2 ^ 64)).wf = false ∧ (Instr.functionLevelReset 0 64).wf = false ∧
    (Instr.subTailDoorbell 0 0 4 0).wf = false ∧ (Instr.copyDone 0 0 (2 ^ 64)).wf = false ∧ (Instr.msixUnmask 0 0 4).wf = false ∧
    (Instr.ptpSync 0 16 0 true).wf = false ∧ (Instr.fecLock 0 0 4).wf = false ∧ (Instr.sessionIdleTimeout 0 4096).wf = false ∧
    (Instr.modelLoadDone 0 0 0 64).wf = false ∧ (Instr.draftFinish 0 65536 []).wf = false := by decide

/-- Doorbell values, register accesses, cells, blocks, regions, dies, stacks, crossings, targets, superblocks. -/
theorem test_wf_refuses_places : (Instr.dictDoorbell 0 0 (2 ^ 32)).wf = false ∧ (Instr.funcRegisterWrite 0 0 2 4 0).wf = false ∧
    (Instr.ringEnable 0 0 (.sub 4)).wf = false ∧ (Instr.blockWatchdog 0 (24 * 64) []).wf = false ∧
    (Instr.residueMismatch 0 0 17 false ⟨.node 1 1 3, []⟩).wf = false ∧ (Instr.stewardWatchdog 0 768 []).wf = false ∧
    (Instr.droopDetect 0 32 0).wf = false ∧ (Instr.dieBridgeWatchdog 0 4 false []).wf = false ∧
    (Instr.hbmUncorrectable 0 24 0 0 0 false 0 []).wf = false ∧ (Instr.crossingWatchdog 0 3 1 []).wf = false ∧
    (Instr.flashTargetFault 0 128 []).wf = false ∧ (Instr.superblockErase 0 325504).wf = false := by decide

/-- Voltages, cadences, fetched lists, payload parts, PDUs, channels. -/
theorem test_wf_refuses_compounds : (Instr.busSag 0 100000).wf = false ∧ (Instr.droopDetect 0 0 2001).wf = false ∧
    (Instr.nop 0 ⟨0, List.replicate 257 0⟩).wf = false ∧ (Instr.retrieve 0 ⟨0, []⟩ [0]).wf = false ∧
    (Instr.read 0 { transport := .can, channel := 1, header := 0 }).wf = false ∧
    (Instr.read 0 { transport := .pcie, channel := 0, header := 0, ident := 2048 }).wf = false ∧
    (Instr.getVersion 0 64 false).wf = false ∧ (Instr.nop 0 ⟨0, []⟩).wf = true := by decide

/-- No row of the table has bits, so no word spells a command. -/
theorem test_no_words : decodeTableWord 16 0 = none ∧ State.reset.withFetchWord 16 0 = State.reset := by decide +kernel

/-! ### The block, doorbells, rings, registers -/

theorem witness_StepRunsFrontCommand : ∃ s : State, s.pending = [.slateClose 5] ∧ State.reset.pending = [] :=
  ⟨{ State.reset with pending := [.slateClose 5] }, rfl, rfl⟩

theorem witness_Doorbells : serving.fnExists 0 = true ∧ (∃ q, (serving.fn 0).subs[0]? = some q ∧ q.enable = true ∧ q.tail = 1 ∧
    63 < 2 ^ q.size ∧ 2 ^ q.size ≤ 64) ∧ (serving.fn 0).cpl.enable = true ∧ 63 < 2 ^ (serving.fn 0).cpl.size ∧
    0 < serving.host.fns.length ∧ (serving.fn 0).sbr.enable = true ∧ 65472 < 2 ^ (serving.fn 0).sbr.size ∧ 65472 % 64 = 0 ∧
    (serving.fn 0).sbr.ovf = [] := ⟨by decide +kernel, ⟨_, rfl, by decide⟩, by decide +kernel⟩

/-- Function 0 with a window and rings that wait to be enabled: `n` is ring 0's size code, `b` its base. -/
def waitingRing (n b : Nat) : State := { serving with host := { serving.host with fns := { fn0 with subs := [{ base := b, size := n }, {}, {}, {}], sbr := { base := 0x40000, size := 16 } } :: List.replicate 63 {} } }

theorem witness_Rings : (waitingRing 6 0x10000).fnExists 0 = true ∧ (ringCfg ((waitingRing 6 0x10000).fn 0) (.sub 0)).2.2.1 = false ∧
    (waitingRing 6 0x10000).enableCheck 0 (.sub 0) = none ∧ (waitingRing 6 0x10000).enableCheck 0 .sbr = none ∧
    (ringCfg ((waitingRing 6 0x10000).fn 0) .sbr).2.2.1 = false ∧ (waitingRing 5 0x10000).enableCheck 0 (.sub 0) = some .fieldReserved ∧
    (waitingRing 17 0x10000).enableCheck 0 (.sub 0) = some .fieldReserved ∧
    (waitingRing 16 0x2000000).enableCheck 0 (.sub 0) = some .accessDenied ∧
    inWindows ((waitingRing 6 0xFFF000).fn 0).wins 0xFFF000 (2 ^ 6 * 64) = true ∧
    inWindows ((waitingRing 7 0xFFF000).fn 0).wins 0xFFF000 (2 ^ 7 * 64) = false ∧
    ({ serving with reqs := [reqOf (desc 0x3F 1 0 0 0)] } : State).busyFn 0 = true ∧ serving.busyFn 0 = false ∧
    (serving.fn 0).sbr.enable = true := by decide +kernel

/-- Two virtual functions are enabled. -/
def virtual : State := { serving with host := { serving.host with vfEnable := true, numVfs := 2 } }

theorem witness_FunctionRegisters : virtual.host.fns.length = 64 ∧ virtual.fnExists 2 = true ∧ virtual.fnExists 3 = false ∧
    serving.fnExists 0 = true ∧ serving.host.vfEnable = false := by decide +kernel

/-- A vector of function 0 whose interrupt waits, masked or not. -/
def vector (m : Bool) : State := { serving with host := { serving.host with fns := { fn0 with holdoff := 1000, msix := [{ masked := m, armed := true, pend := m, lastFired := some 0 }, {}, {}, {}] } :: List.replicate 63 {} } }

theorem witness_Msix : ∀ m, 0 < (vector m).host.fns.length ∧ 0 < ((vector m).fn 0).msix.length ∧ (((vector m).fn 0).msix.getD 0 {}).armed = true ∧
    (((((vector m).fn 0).msix.getD 0 {}).lastFired.getD 0) + ((vector m).fn 0).holdoff * 1000 ≤ max (vector m).now 0) ∧
    (((vector m).fn 0).msix.getD 0 {}).masked = m ∧ (vector m).fnExists 0 = true ∧
    (((vector m).fn 0).msix.getD 1 {}).lastFired = none := by decide +kernel

theorem witness_DictionaryDoorbell : serving.fnExists 0 = true ∧ (serving.fn 0).dictBusy = false ∧
    ((serving.modFn 0 fun fn => { fn with dictBusy := true }).fn 0).dictBusy = true := by decide +kernel

/-! ### Descriptor rows -/

theorem witness_NopAnswered : ∃ q s1, serving.TakesRow 0 0x3F (desc 0x3F 1 0 0 0) false q s1 :=
  ⟨_, _, takes (f := 0) (r := 0) (by decide +kernel) (by decide +kernel)⟩

/-- A CANCEL of tag 5. -/
def cancel5 : Fetched := ⟨mkDesc 0x07 1 0 0 0 0 0 77 5 0 0 0 0 0, []⟩

/-- Function 0 has one request of tag 5, changed by `g`. -/
def oneReq (g : Request → Request) : State := { serving with reqs := [g { reqOf (desc 0x03 1 64 0 64) with tag := 5 }] }

/-- The CANCEL reaches its row in each of these: no target; a target with a CANCEL already; one in a stage; one with a round open;
one that cannot be cancelled. -/
theorem witness_CancelRows : (∀ g ∈ [id, fun q : Request => { q with cancels := [⟨5, 0, 0⟩] }, fun q => { q with round := some ⟨true, 0, []⟩ },
      fun q => { q with op := 0x22 }, fun q => { q with tag := 6 }], ∃ r s1, (oneReq g).TakesRow 0 0x07 cancel5 false r s1) ∧
    cancellable { reqOf (desc 0x03 1 64 0 64) with tag := 5 } = true ∧ dTarget cancel5.desc = 5 := by
  refine ⟨?_, by decide +kernel⟩
  simp only [List.forall_mem_cons, List.not_mem_nil, false_implies, implies_true, and_true]
  exact ⟨⟨_, _, takes (f := 0) (r := 0) (by decide +kernel) (by decide +kernel)⟩,
    ⟨_, _, takes (f := 0) (r := 0) (by decide +kernel) (by decide +kernel)⟩,
    ⟨_, _, takes (f := 0) (r := 0) (by decide +kernel) (by decide +kernel)⟩,
    ⟨_, _, takes (f := 0) (r := 0) (by decide +kernel) (by decide +kernel)⟩,
    ⟨_, _, takes (f := 0) (r := 0) (by decide +kernel) (by decide +kernel)⟩⟩

theorem witness_FailedChecks : rowOf (.ask 0 (desc 0x02 0 64 0 0) []) = some (0, desc 0x02 0 64 0 0, 0x01, false) ∧
    nextFetch (State.reset.tick 0) = none ∧ nextFetch (serving.tick 0) = some (0, 0) ∧
    checks16 (fetchFrom (serving.tick 0) 0 0 (desc 0x02 0 64 0 0).desc) 0 0x01 (desc 0x02 0 64 0 0) false = some .fieldReserved := by
  decide +kernel

/-- The same module without hub SRAM, and without the time base. -/
def full : State := { serving with pools := { serving.pools with hubGranules := 0 }, ptp := {} }

/-- With LC work of function 0 allowed. -/
def allowLc (s : State) : State := s.setEntry (perFn 0x2100 0) 1000000

/-- Options, a retrieval block of K = 4, a rank block that selects one passage, generation of 4 tokens. -/
def pay : Payload := { opts := 0, retr := word 256 [(240, 4)], rank := word 512 [(456, 1), (368, 4), (352, 1), (320, 64)]
                       gen := word 512 [(480, 4), (448, 2), (352, 1), (248, 1), (240, 1)], prompt := [65, 66], text := [[65, 66]]
                       ids := [BitVec.ofNat 64 (2 ^ 48 + 2)] }

/-- The bytes of a payload with those parts, zeros up to PAYLOAD_LEN. -/
def hostOf (x : Fetched) (p : Payload) : List Byte :=
  let p : Payload := { p with filters := List.replicate 8 0, stops := List.replicate 8 0
                              text := if dOp x.desc = 0x06 then [] else p.text, prompt := if dOp x.desc = 0x06 then p.prompt else [] }
  padTo (dPayLen x.desc) (payloadBytes (dOp x.desc) p)

/-- The payload as the device cuts it from those bytes. -/
def payOf (x : Fetched) (p : Payload) : Payload := cutPayload x (hostOf x p)

def rerank1 : Fetched := ⟨mkDesc 0x04 1 0 0 0 0 1 77 0 0x1000 512 2 0x2000 4096, []⟩
def pack1 : Fetched := ⟨mkDesc 0x05 1 0 0 0 0 1 77 0 0x1000 512 2 0x2000 4096, []⟩

theorem witness_OneResultRequests_embed : (∃ q s1, serving.TakesRow 0 0x03 (desc 0x03 1 64 2 64) false q s1 ∧
      s1.checkEmbed q (desc 0x03 1 64 2 64) (payOf (desc 0x03 1 64 2 64) pay) = none ∧ (s1.embedAdm q (desc 0x03 1 64 2 64) (payOf (desc 0x03 1 64 2 64) pay)).admissible = true) ∧
    (∃ q s1, full.TakesRow 0 0x03 (desc 0x03 1 64 2 64) false q s1 ∧
      s1.checkEmbed q (desc 0x03 1 64 2 64) (payOf (desc 0x03 1 64 2 64) pay) = none ∧ (s1.embedAdm q (desc 0x03 1 64 2 64) (payOf (desc 0x03 1 64 2 64) pay)).admissible = false) :=
  ⟨⟨_, _, takes (f := 0) (r := 0) (by decide +kernel) (by decide +kernel), by decide +kernel⟩,
   ⟨_, _, takes (f := 0) (r := 0) (by decide +kernel) (by decide +kernel), by decide +kernel⟩⟩

theorem witness_OneResultRequests_retrieve : (∃ q s1, serving.TakesRow 0 0x02 (desc 0x02 1 256 2 128) false q s1 ∧
      s1.checkRetrieve q (desc 0x02 1 256 2 128) (payOf (desc 0x02 1 256 2 128) pay) = none ∧ (s1.retrieveAdm q (desc 0x02 1 256 2 128) (payOf (desc 0x02 1 256 2 128) pay)).admissible = true) ∧
    (∃ q s1, full.TakesRow 0 0x02 (desc 0x02 1 256 2 128) false q s1 ∧
      s1.checkRetrieve q (desc 0x02 1 256 2 128) (payOf (desc 0x02 1 256 2 128) pay) = none ∧ (s1.retrieveAdm q (desc 0x02 1 256 2 128) (payOf (desc 0x02 1 256 2 128) pay)).admissible = false) :=
  ⟨⟨_, _, takes (f := 0) (r := 0) (by decide +kernel) (by decide +kernel), by decide +kernel⟩,
   ⟨_, _, takes (f := 0) (r := 0) (by decide +kernel) (by decide +kernel), by decide +kernel⟩⟩

theorem witness_OneResultRequests_rerank : (∃ q s1, serving.TakesRow 0 0x04 rerank1 false q s1 ∧ s1.checkRerank q rerank1 (payOf rerank1 pay) = none ∧
      s1.index.live.head? = some index ∧ (s1.rerankAdm q rerank1 (payOf rerank1 pay) index).admissible = true ∧ (s1.req q.fn q.tag).isNone = true) ∧
    (∃ q s1, full.TakesRow 0 0x04 rerank1 false q s1 ∧ s1.checkRerank q rerank1 (payOf rerank1 pay) = none ∧
      s1.index.live.head? = some index ∧ (s1.rerankAdm q rerank1 (payOf rerank1 pay) index).admissible = false) :=
  ⟨⟨_, _, takes (f := 0) (r := 0) (by decide +kernel) (by decide +kernel), by decide +kernel, by decide +kernel, by decide +kernel⟩,
   ⟨_, _, takes (f := 0) (r := 0) (by decide +kernel) (by decide +kernel), by decide +kernel, by decide +kernel, by decide +kernel⟩⟩

theorem witness_OneResultRequests_pack : (∃ q s1, serving.TakesRow 0 0x05 pack1 false q s1 ∧ s1.checkPack q pack1 (payOf pack1 pay) = none ∧
      s1.index.live.head? = some index ∧ (s1.packAdm q pack1 (payOf pack1 pay) index).admissible = true) ∧
    (∃ q s1, full.TakesRow 0 0x05 pack1 false q s1 ∧ s1.checkPack q pack1 (payOf pack1 pay) = none ∧
      s1.index.live.head? = some index ∧ (s1.packAdm q pack1 (payOf pack1 pay) index).admissible = false) :=
  ⟨⟨_, _, takes (f := 0) (r := 0) (by decide +kernel) (by decide +kernel), by decide +kernel, by decide +kernel, by decide +kernel⟩,
   ⟨_, _, takes (f := 0) (r := 0) (by decide +kernel) (by decide +kernel), by decide +kernel, by decide +kernel, by decide +kernel⟩⟩

/-- 64 bytes from host address 0x3000 to scratch offset 8. -/
def copyIn : BitVec 256 := word 256 [(240, 1), (192, 64), (128, 0x3000), (64, 8)]

theorem witness_OneResultRequests_copy : (∃ q s1, (allowLc serving).TakesRow 0 0x30 (desc 0x30 0 32 0 0) false q s1 ∧
      s1.checkCopy q copyIn = none ∧ q.lc = true ∧ s1.entry (perFn 0x2100 q.fn) ≠ 0 ∧ (s1.copyAdm q copyIn []).admissible = true) ∧
    (∃ q s1, (allowLc full).TakesRow 0 0x30 (desc 0x30 0 32 0 0) false q s1 ∧ s1.checkCopy q copyIn = none ∧
      q.lc = true ∧ s1.entry (perFn 0x2100 q.fn) ≠ 0 ∧ (s1.copyAdm q copyIn []).admissible = false) :=
  ⟨⟨_, _, takes (f := 0) (r := 0) (by decide +kernel) (by decide +kernel), by decide +kernel⟩,
   ⟨_, _, takes (f := 0) (r := 0) (by decide +kernel) (by decide +kernel), by decide +kernel⟩⟩

/-- Everything fits n = 1 on a resident model; nothing fits without hub SRAM. -/
theorem witness_StreamRequests_generate : (∃ q s1 s2, serving.TakesRow 0 0x06 (desc 0x06 1 448 0 0) false q s1 ∧
      s1.checkGenerate q (desc 0x06 1 448 0 0) (payOf (desc 0x06 1 448 0 0) pay) = none ∧ s1.modelId (gModel (payOf (desc 0x06 1 448 0 0) pay).gen) 1 = some mainModel ∧
      s1.stepChoices q mainModel = [1] ∧ s1.generateStream q (payOf (desc 0x06 1 448 0 0) pay) mainModel 1 = some s2) ∧
    (∃ q s1, full.TakesRow 0 0x06 (desc 0x06 1 448 0 0) false q s1 ∧ s1.checkGenerate q (desc 0x06 1 448 0 0) (payOf (desc 0x06 1 448 0 0) pay) = none ∧
      s1.modelId (gModel (payOf (desc 0x06 1 448 0 0) pay).gen) 1 = some mainModel ∧ (s1.stepChoices q mainModel).all (fun n => (s1.generateStream q (payOf (desc 0x06 1 448 0 0) pay) mainModel n).isNone) = true) := by
  refine ⟨?_, _, _, takes (f := 0) (r := 0) (by decide +kernel) (by decide +kernel), by decide +kernel, by decide +kernel, by decide +kernel⟩
  obtain ⟨s2, h⟩ := Option.isSome_iff_exists.mp (show ((after (desc 0x06 1 448 0 0)).generateStream
    (reqOf (desc 0x06 1 448 0 0)) (payOf (desc 0x06 1 448 0 0) pay) mainModel 1).isSome = true by decide +kernel)
  exact ⟨_, _, s2, takes (f := 0) (r := 0) (by decide +kernel) (by decide +kernel), by decide +kernel, by decide +kernel, by decide +kernel, h⟩

/-- An ASK generates without a prompt of its own, or hands off to partner 9. -/
def askPay (targets : Nat) : Payload := { pay with gen := if targets = 0 then word 512 [(480, 4), (352, 1), (248, 1), (240, 1)] else word 512 [(480, 4), (248, 1), (240, 1)], rank := word 512 [(456, 1), (368, 4), (352, 1), (320, 64), (448, targets), (288, if targets = 0 then 0 else 9)] }

/-- Partner 9 has an OPEN session. -/
def partner9 (s : State) : State := { s with fab := { s.fab with ident := 3, sessions := [{ idx := 0, ident := 9, lsess := 1, rsess := 2, state := .opened }] } }

theorem witness_StreamRequests_ask : (∃ q s1 s2, serving.TakesRow 0 0x01 (desc 0x01 1 704 2 0) false q s1 ∧
      s1.checkAsk q (desc 0x01 1 704 2 0) (payOf (desc 0x01 1 704 2 0) (askPay 0)) = none ∧ s1.boundVer (payOf (desc 0x01 1 704 2 0) (askPay 0)).retr = some index ∧ kTargets (payOf (desc 0x01 1 704 2 0) (askPay 0)).rank = 0 ∧
      s1.modelId (gModel (payOf (desc 0x01 1 704 2 0) (askPay 0)).gen) 1 = some mainModel ∧ s1.stepChoices q mainModel = [1] ∧
      s1.askStream q (desc 0x01 1 704 2 0) (payOf (desc 0x01 1 704 2 0) (askPay 0)) index mainModel 1 = some s2) ∧
    (∃ q s1, full.TakesRow 0 0x01 (desc 0x01 1 704 2 0) false q s1 ∧ s1.checkAsk q (desc 0x01 1 704 2 0) (payOf (desc 0x01 1 704 2 0) (askPay 0)) = none ∧
      s1.boundVer (payOf (desc 0x01 1 704 2 0) (askPay 0)).retr = some index ∧ kTargets (payOf (desc 0x01 1 704 2 0) (askPay 0)).rank = 0 ∧ s1.modelId (gModel (payOf (desc 0x01 1 704 2 0) (askPay 0)).gen) 1 = some mainModel ∧
      (s1.stepChoices q mainModel).all (fun n => (s1.askStream q (desc 0x01 1 704 2 0) (payOf (desc 0x01 1 704 2 0) (askPay 0)) index mainModel n).isNone) = true) := by
  refine ⟨?_, _, _, takes (f := 0) (r := 0) (by decide +kernel) (by decide +kernel), by decide +kernel, by decide +kernel, by decide +kernel, by decide +kernel, by decide +kernel⟩
  obtain ⟨s2, h⟩ := Option.isSome_iff_exists.mp (show ((after (desc 0x01 1 704 2 0)).askStream
    (reqOf (desc 0x01 1 704 2 0)) (desc 0x01 1 704 2 0) (payOf (desc 0x01 1 704 2 0) (askPay 0)) index mainModel 1).isSome = true by decide +kernel)
  exact ⟨_, _, s2, takes (f := 0) (r := 0) (by decide +kernel) (by decide +kernel), by decide +kernel, by decide +kernel, by decide +kernel, by decide +kernel, by decide +kernel, h⟩

theorem witness_StreamRequests_handoff : (∃ q s1, (partner9 serving).TakesRow 0 0x01 (desc 0x01 1 704 2 0) false q s1 ∧
      s1.checkAsk q (desc 0x01 1 704 2 0) (payOf (desc 0x01 1 704 2 0) (askPay 1)) = none ∧ s1.boundVer (payOf (desc 0x01 1 704 2 0) (askPay 1)).retr = some index ∧ kTargets (payOf (desc 0x01 1 704 2 0) (askPay 1)).rank ≠ 0 ∧
      (s1.askAdm q (desc 0x01 1 704 2 0) (payOf (desc 0x01 1 704 2 0) (askPay 1)) index).admissible = true) ∧
    (∃ q s1, (partner9 full).TakesRow 0 0x01 (desc 0x01 1 704 2 0) false q s1 ∧
      s1.checkAsk q (desc 0x01 1 704 2 0) (payOf (desc 0x01 1 704 2 0) (askPay 1)) = none ∧ s1.boundVer (payOf (desc 0x01 1 704 2 0) (askPay 1)).retr = some index ∧ kTargets (payOf (desc 0x01 1 704 2 0) (askPay 1)).rank ≠ 0 ∧
      (s1.askAdm q (desc 0x01 1 704 2 0) (payOf (desc 0x01 1 704 2 0) (askPay 1)) index).admissible = false) :=
  ⟨⟨_, _, takes (f := 0) (r := 0) (by decide +kernel) (by decide +kernel), by decide +kernel, by decide +kernel, by decide +kernel⟩,
   ⟨_, _, takes (f := 0) (r := 0) (by decide +kernel) (by decide +kernel), by decide +kernel, by decide +kernel, by decide +kernel⟩⟩

/-- Table 8 of four FP32 rows of one element, all of this module 3, row 1 held with value 2.0. -/
def table8 : TableDesc := { tableId := 8, version := 1, rowCount := 4, dim := 1, format := 6, subfmt := 0, trainable := true, default := ⟨[0], []⟩ }
def row1 : PoolRow := { row := 1, value := ⟨[0x40000000], []⟩ }
def pooled (r : PoolRow) : State := { partner9 serving with pool := { haveMap := true, epoch := 1, descs := [table8], ranges := [mkRange 8 3 0 3 false], tables := [{ desc := table8, rows := [r], imageRows := [(1, ⟨[0x3F800000], []⟩)] }] } }

/-- A gather of row 1 for one bag, in FP32; an update of row 1 by 1.0. -/
def gather1 : GatherPayload := { blk := word 512 [(480, 8), (416, 1), (384, 1)], lens := [1], rows := [1] }
def update1 : UpdatePayload := { blk := word 128 [(96, 8), (80, 1), (32, 1)], entries := [(1, [0x3F800000#32])] }

theorem witness_TableRequests : (∃ q s1, (pooled row1).TakesRow 0 0x10 (desc 0x10 1 128 0 192) false q s1 ∧ s1.checkGather q gather1 = none ∧
      s1.gatherDesc gather1.blk = some table8 ∧ (s1.gatherAdm q gather1 table8).admissible = true ∧
      (s1.gatherAdm q gather1 table8).r.covered = 0 ∧ (s1.req q.fn q.tag).isNone = true ∧ (1 : BitVec 64) ∈ gather1.rows) ∧
    (∃ q s1, (pooled row1).TakesRow 0 0x11 (desc 0x11 1 64 0 0) false q s1 ∧ s1.checkUpdate q update1 = none ∧
      (s1.updateAdm q update1).admissible = true ∧ s1.table (tuTable update1.blk) = some table8 ∧
      update1.entries.take (tuEntries update1.blk) = [(1, [0x3F800000#32])] ∧ (1 : BitVec 64).toNat < table8.rowCount ∧
      s1.pool.outgoing = [] ∧ (s1.updateAdm q update1).r.covered = 0 ∧ (s1.req q.fn q.tag).isNone = true) :=
  ⟨⟨_, _, takes (f := 0) (r := 0) (by decide +kernel) (by decide +kernel), by decide +kernel⟩,
   ⟨_, _, takes (f := 0) (r := 0) (by decide +kernel) (by decide +kernel), by decide +kernel⟩⟩

/-- As LC, after a withdrawal in the same step: refused. -/
theorem witness_TableRequests_refused : let s := allowLc { pooled row1 with adm := { (pooled row1).adm with refuseLc := true } }
    (∃ q s1, s.TakesRow 0 0x10 (desc 0x10 0 128 0 192) false q s1 ∧ s1.checkGather q gather1 = none ∧
      s1.gatherDesc gather1.blk = some table8 ∧ (s1.gatherAdm q gather1 table8).admissible = false) ∧
    (∃ q s1, s.TakesRow 0 0x11 (desc 0x11 0 64 0 0) false q s1 ∧ s1.checkUpdate q update1 = none ∧
      (s1.updateAdm q update1).admissible = false) :=
  ⟨⟨_, _, takes (f := 0) (r := 0) (by decide +kernel) (by decide +kernel), by decide +kernel⟩,
   ⟨_, _, takes (f := 0) (r := 0) (by decide +kernel) (by decide +kernel), by decide +kernel⟩⟩

/-- A signed image in host memory. -/
def signed (i : Image) : SignedImage := { img := i, signer := .development, digestOk := true, digest := 5, bytes := 1000 }
def loadPay (i : Image) (keep defer : Bool) (victim : Nat) : LoadPayload := { blk := word 256 [(247, keep.toNat), (246, defer.toNat), (160, victim), (64, 1000)], image := some (signed i) }
def model5 : ModelImage := { modelId := 5, kind := 1, resident := true, vocab := 1, contextMax := 4096 }
def index6 : IndexImage := { index.img with version := 6 }

theorem witness_LoadRequests : (∃ q s1, serving.TakesRow 0 0x20 (desc 0x20 1 1032 0 0) false q s1 ∧
      s1.checkLoad 0x20 q (loadPay (.model model5) false false 0) = (none, some (signed (.model model5)))) ∧
    (∃ q s1, serving.TakesRow 0 0x21 (desc 0x21 1 1032 0 0) true q s1 ∧ lDefer (loadPay (.model model5) false true 1).blk = true ∧
      s1.checkLoad 0x21 q (loadPay (.model model5) false true 1) = (none, some (signed (.model model5)))) ∧
    (∃ q s1, serving.TakesRow 0 0x22 (desc 0x22 1 1032 0 0) false q s1 ∧
      s1.checkLoad 0x22 q (loadPay (.index index6) true false 0) = (none, some (signed (.index index6)))) ∧
    (∃ q s1, serving.TakesRow 0 0x20 (desc 0x20 1 1032 0 0) false q s1 ∧
      s1.checkLoad 0x20 q (loadPay (.index index6) false false 0) = (some .fieldReserved, some (signed (.index index6)))) :=
  ⟨⟨_, _, takes (f := 0) (r := 0) (by decide +kernel) (by decide +kernel), by decide +kernel⟩,
   ⟨_, _, takes (f := 0) (r := 0) (by decide +kernel) (by decide +kernel), by decide +kernel⟩,
   ⟨_, _, takes (f := 0) (r := 0) (by decide +kernel) (by decide +kernel), by decide +kernel⟩,
   ⟨_, _, takes (f := 0) (r := 0) (by decide +kernel) (by decide +kernel), by decide +kernel⟩⟩

/-- A part of table 8 in version 2, a map of epoch 2, and the move of rows 0 and 1 to module 9. -/
def part8 : TableImage := { desc := { table8 with version := 2 }, rows := [(0, ⟨[0x40400000], []⟩)] }
def map2 : MapImage := { epoch := 2, descs := [table8], ranges := [mkRange 8 9 0 3 false] }
def map3 : MapImage := { map2 with ranges := [mkRange 8 3 0 3 false] }
def publish (obj : Nat) (i : Option Image) : PublishPayload := if obj = 2 then { blk := word 512 [(504, 2), (288, 8), (256, 9), (192, 0), (128, 1)] } else { blk := word 512 [(504, obj), (384, 2050000), (320, 1000)], image := i.map signed }

theorem witness_PublishRequests : (∃ q s1, (pooled row1).TakesRow 0 0x12 (desc 0x12 1 1064 0 0) false q s1 ∧
      s1.publishImage q (publish 0 (some (.table part8))) 0 = (none, some (signed (.table part8))) ∧
      s1.checkPart part8 (pSwitch (publish 0 (some (.table part8))).blk) = none) ∧
    (∃ q s1, (pooled row1).TakesRow 0 0x12 (desc 0x12 1 1064 0 0) false q s1 ∧
      s1.publishImage q (publish 1 (some (.rangeMap map3))) 1 = (none, some (signed (.rangeMap map3))) ∧
      s1.checkMap map3 (pSwitch (publish 1 (some (.rangeMap map3))).blk) = none) ∧
    (∃ q s1, (pooled row1).TakesRow 0 0x12 (desc 0x12 1 64 0 0) false q s1 ∧ s1.checkMigrate q (publish 2 none) = none) :=
  ⟨⟨_, _, takes (f := 0) (r := 0) (by decide +kernel) (by decide +kernel), by decide +kernel⟩,
   ⟨_, _, takes (f := 0) (r := 0) (by decide +kernel) (by decide +kernel), by decide +kernel⟩,
   ⟨_, _, takes (f := 0) (r := 0) (by decide +kernel) (by decide +kernel), by decide +kernel⟩⟩

/-! ### Copies, rounds, stages -/

/-- Function 0 has the request `g` makes of a started one of tag 5, opcode `op`, stage `n`. -/
def base (op n : Nat) : Request := { fn := 0, tag := 5, op := op, desc := (desc op 1 64 0 64).desc, ring := 0, index := 0, lc := false, payload := pay, work := { stage := n, version := 5 }, template := 1, vocabs := [(1, 1)] }
def at_ (r : Request) : State := { serving with reqs := [r] }

/-- A COPY of 64 bytes, into scratch or out of it. -/
def copyReq (into : Bool) : Request := { base 0x30 0 with copy := some (if into then copyIn else word 256 [(248, 1), (192, 64), (128, 8), (64, 0x3000)], List.replicate 64 1) }

theorem witness_CopyMovesItsBytes : ∀ i, (at_ (copyReq i)).req 0 5 = some (copyReq i) ∧ ((at_ (copyReq i)).scratch 0).wf = true ∧
    (copyReq i).silent = false ∧ (copyReq i).mirror = false ∧ (copyReq i).copy.any (fun c => decide (cDstSpace c.1 = 1) == i) = true ∧
    ((at_ { copyReq i with fn := 2000, mirror := true }).req 2000 5).any (fun r => r.mirror && r.copy.isSome) = true := by decide +kernel

/-- A split model of three members, and the request that waits for them. -/
def splitModel : ModelRes := { mainModel with img := { mainModel.img with split := [[3, 9], [11]], xSteps := 2 } }
def splitReq : Request := { base 0x06 20 with gen := true, model := 0, round := some ⟨true, 950000, [(0, 1, 2)]⟩, promise := { handle := handleOf 4 1, steps := 1 } }

/-- The waits end exactly 100 µs after they began; an answer of another member is the last of three; the sum of R107 is 255 or 256. -/
theorem witness_SplitRounds : let s : State := { at_ splitReq with img := { serving.img with models := [splitModel] } }
    s.req 0 5 = some splitReq ∧ 950000 + 100000 ≤ max s.now 1050000 ∧ max s.now 1049999 < 950000 + 100000 ∧
    s.model splitReq.model = some splitModel ∧ splitReq.covered = 0 ∧ splitReq.origin = 0 ∧
    ([(0, 1, 2)].filter fun x => !(x.1 = 0 && x.2.1 = 1)).length + 2 < membersOf splitModel ∧
    membersOf splitModel ≤ ([(0, 1, 2)].filter fun x => !(x.1 = 1 && x.2.1 = 0)).length + 2 ∧
    (at_ { splitReq with lc := true }).req 0 5 = some { splitReq with lc := true } ∧ (s.tick 0).lcClosed = false ∧ (({ s with adm := { refuseLc := true } } : State).tick 0).lcClosed = true ∧
    splitSteps splitModel 1 [(0, 1, 2), (1, 0, 251)] = 255 ∧ splitSteps splitModel 1 [(0, 1, 2), (1, 0, 252)] = 256 := by decide +kernel

theorem witness_CancelsEndAtStages : ∀ n, ∃ r, (at_ { base 0x01 n with cancelling := true }).req 0 5 = some r ∧ r.started = true ∧
    r.cancelling = true ∧ r.work.stage = n := fun _ => ⟨_, rfl, rfl, rfl, rfl⟩

theorem witness_TextStages_tokens : (∃ us es n k, (at_ (base 0x03 2)).textTokens (base 0x03 2) ((at_ (base 0x03 2)).mainVocab (base 0x03 2)) = (some us, n) ∧
      (at_ (base 0x03 2)).textTokens (base 0x03 2) (((at_ (base 0x03 2)).encoderOf (base 0x03 2)).map (·.img.vocab)) = (some es, k)) ∧
    (let r : Request := { base 0x03 2 with payload := { pay with opts := word 256 [(248, 2)], text := [[0xFF]] } }
      ∃ n, (at_ r).textTokens r ((at_ r).mainVocab r) = (none, n)) ∧
    (at_ (base 0x03 2)).req 0 5 = some (base 0x03 2) ∧ (base 0x03 2).started = true ∧ (base 0x03 2).cancelling = false :=
  ⟨⟨[65, 66], [65, 66], 0, 0, by decide +kernel⟩, ⟨1, by decide +kernel⟩, rfl, rfl, rfl⟩

theorem witness_TextStages_prompts : let r : Request := { base 0x06 20 with model := 0 }
    let r1 : Request := { r with payload := { pay with gen := word 512 [(480, 4), (448, 2), (352, 1), (256, 1), (248, 1), (240, 1)] } }
    let r2 : Request := { r with payload := { pay with prompt := [65, 256] } }
    gSrc r1.payload.gen = 1 ∧ gSrc r.payload.gen ≠ 1 ∧ (∃ v, (((at_ r).model r.model).map (·.img.vocab)).bind ((at_ r).vocabOf r) = some v ∧
      (r.payload.prompt.take (gCount r.payload.gen)).all (tokenField v.img.tokenCount) = true ∧
      (r2.payload.prompt.take (gCount r2.payload.gen)).all (tokenField v.img.tokenCount) = false) :=
  ⟨by decide +kernel, by decide +kernel, vocab, by decide +kernel⟩

theorem witness_EmbeddingEnds : (base 0x03 3).mirror = false ∧ (base 0x03 3).silent = false ∧ (base 0x03 3).fn < 64 ∧
    (at_ (base 0x04 3)).liveVer (base 0x04 3).work.version = some index ∧
    (∀ op ∈ [0x01, 0x02, 0x03, 0x04], (at_ (base op 3)).req 0 5 = some (base op 3) ∧ (base op 3).work.stage = 3) := by decide +kernel

theorem witness_RankingStages : ∀ n ∈ [8, 9, 10, 11], ∀ op ∈ [0x01, 0x04],
    let r : Request := { base op n with work := { stage := n, version := 5, cands := [{ id := 2 ^ 48 + 1 }, { id := 2 ^ 48 + 4 }] }
                                        payload := { pay with rank := word 512 [(496, 2), (472, 1), (456, 1), (384, 0x3F800000), (368, 4), (352, 1), (320, 64)] } }
    (at_ r).req 0 5 = some r ∧ (at_ r).liveVer r.work.version = some index ∧ r.work.remote = [] ∧ r.work.stage = n ∧ r.op = op ∧
      ([0x3F800000#32] : List F32).length = (r.work.cands.take (kCeN r.payload.rank)).length := by decide +kernel

theorem witness_PackingEnds : let r : Request := { base 0x01 12 with work := { stage := 12, version := 5, tokens := [65] }, promise := { handle := handleOf 4 1 } }
    let h : Request := { r with payload := askPay 1 }
    let e : Request := { r with work := { stage := 12, version := 5 } }
    (at_ r).req 0 5 = some r ∧ (at_ r).templateOf r = some template ∧ (packWork template.img r).prompt ≠ [] ∧ kTargets r.payload.rank = 0 ∧
    (packWork template.img e).prompt = [] ∧ kTargets h.payload.rank ≠ 0 ∧ (packWork template.img h).prompt ≠ [] ∧
    handTargets h = [9] ∧ (partner9 (at_ h)).partner 9 = true ∧ h.mirror = false := by decide +kernel

theorem witness_WaitsExpire : let r : Request := { base 0x01 8 with work := { stage := 8, version := 5, since := 0, remote := [2], cands := [{ id := 2 * 2 ^ 48 }] } }
    let h (n : Nat) : Request := { base 0x01 14 with work := { stage := 14, awaiting := some 8, attempt := n }, payload := { pay with rank := word 512 [(448, 2), (288, 8), (256, 9)] } }
    (at_ r).req 0 5 = some r ∧ r.work.remote ≠ [] ∧ r.work.since + (at_ r).entry 0x310001 ≤ max (at_ r).now 600000000 ∧
    max 0 0 < r.work.since + (at_ r).entry 0x310001 ∧ (at_ (h 1)).entry 0x310004 ≤ max (at_ (h 1)).now 600000000 ∧
    (handTargets (h 1)).drop 2 = [] ∧ (handTargets (h 0)).drop 1 = [9] ∧ (partner9 (at_ (h 0))).partner 9 = true := by decide +kernel

theorem witness_StopStrings : (∀ x ∈ [[35, 35, 35], [35]], 0 < (x : List Byte).length ∧ x.length ≤ 32) ∧
    (let o := ([99, 35, 35] : List Byte).foldl (OutPath.byte [[35, 35, 35]] 0 false) { held := [], utf := [] }; o.fired = false ∧ o.held = [35, 35]) ∧
    (endsWith ([99, 35].take 2) [35] = true ∧ endsWith ([99, 35].take 1) [35] = false ∧ endsWith ([99, 35].take 0) [35] = false) := by decide +kernel


/-- A greedy walk on a tree of the root alone: the larger logit decides, 255 ends the stream. -/
def walk (a b max : Nat) : WalkIn := { gen := pay.gen, ends := [255], entries := [], history := [65], generated := 3, maxNew := max, tree := [⟨0, 65, 1⟩], logits := [[(65, BitVec.ofNat 32 a), (255, BitVec.ofNat 32 b)]] }

/-- A stream of tag 5 in slot 4 on the main model, with a tree of one node, generating `max` tokens. -/
def genReq (max : Nat) : Request := { base 0x06 13 with gen := true, model := 0, maxNew := max, promise := { handle := handleOf 4 1, steps := 1 } }
def generating (max : Nat) : State := { at_ (genReq max) with
  seq := { entries := [(4, { gen := 1, state := .decode, lc := false, model := 0, steps := 1, depth := 1, nodes := 1, last := 65, prompt := 1, ctx := 4, generated := 3, maxNew := max })]
           streams := [{ slot := 4, fn := 0, tag := 5, modelId := 1, promptToks := [65], toks := [66, 67, 68], tree := [⟨0, 68, 1⟩] }] }
  step := { no := 20, begun := true } }
def verRow (a b : Nat) : VerRow := { slot := 4, logits := [[(65, BitVec.ofNat 32 a), (255, BitVec.ofNat 32 b)]] }

/-- Three walks: an ending token at the limit, another token at the limit, another token below it. -/
theorem witness_EndStatusOrder : (∀ x ∈ [(0, 0x3F800000, 4), (0x3F800000, 0, 4), (0x3F800000, 0, 5)],
      (walkTree (walk x.1 x.2.1 x.2.2) 1 0 [] 0).2.1 ≠ some .internalFault ∧
      (walkTree (walk x.1 x.2.1 x.2.2) 1 0 [] 0).1.map (·.token) = [if x.1 = 0 then 255 else 65]) ∧
    ((generating 4).walkRow (verRow 0x3F800000 0)).any (fun w => ((generating 4).streamAt w.st.slot).isSome
        && decide (((generating 4).model ((generating 4).slot w.st.slot).model) = some mainModel)
        && decide (((generating 4).vocabOf w.req mainModel.img.vocab) = some vocab)) = true ∧ isControl { vocab.img with ids := [2 ^ 63] } 0 = true := by decide +kernel

/-! ### Sweeps -/

/-- A query of function 0, tag 5, that waits with its sketch; `g` changes it. -/
def query (g : Request → Request) : Request := g { base 0x02 5 with work := { stage := 5, version := 5, sketch := 3, sketchReady := true } }

/-- The slate of sweep 0 may close: one query waits, one is cancelled, or none waits; or a closed slate stands before it. -/
theorem witness_SlateCloses : ∀ s ∈ [at_ (query id), at_ (query fun q => { q with cancelling := true }), serving],
    s.imgOf s.openSweep = some index ∧ index.img.members ≤ 1 ∧ sweeping s.mod.op = true ∧ s.scheduled = true ∧
    s.sweepAt s.openSweep ≤ max s.now 11950000 + slateLead ∧ s.sweep.closed = [] := by decide +kernel

/-- Sweep 0 of one query: closed, running from its time on, or finished. -/
def slate0 : List SlatePos := [posOf 0 (query id)]
def closed0 : State := { at_ (query id) with sweep := { serving.sweep with closed := [(0, slate0)] } }
def run0 : SweepRun := { no := 0, start := 12000000, version := 5, slate := slate0 }
def running0 (op : Nat) : State := { at_ { base op 6 with work := { stage := 6, version := 5 } } with sweep := { serving.sweep with running := some run0, quarters := 1, nextNo := 1 } }

theorem witness_SweepRuns : closed0.imgOf 0 = some index ∧ (slate0.map fun p => (p.fn, p.tag)).Nodup ∧ (running0 1).faults.stalled.contains 64 = false ∧
    ({ running0 1 with faults := { stalled := [64] } } : State).faults.stalled.contains 64 = true ∧ sweeping closed0.mod.op = true ∧ closed0.sweep.running = none ∧
    max closed0.now 11999999 < closed0.sweepAt 0 ∧ closed0.sweepAt 0 ≤ max closed0.now 12000000 ∧ slate0 ≠ [] ∧
    (∃ q ∈ closed0.reqs, q.work.stage = 5 ∧ q.cancelling = false ∧ slate0.any (fun p => p.fn = q.fn && p.tag = q.tag) = true) ∧
    (∀ op ∈ [0x01, 0x02], (running0 op).sweep.running = some run0 ∧ (running0 op).liveVer run0.version = some index ∧
      (∃ q, (running0 op).req 0 5 = some q ∧ q.op = op) ∧ 1 ≤ (running0 op).sweep.quarters ∧ (running0 op).sweep.quarters < 3 ∧
      ∃ q ∈ (running0 op).reqs, q.work.stage = 6 ∧ slate0.any (fun p => p.fn = q.fn && p.tag = q.tag) = true) := by
  refine ⟨by decide +kernel, by decide, by decide, by decide, by decide +kernel, rfl, by decide +kernel, by decide +kernel, by decide, ⟨_, List.mem_singleton.mpr rfl, by decide +kernel⟩, ?_⟩
  simp only [List.forall_mem_cons, List.not_mem_nil, false_implies, implies_true, and_true]
  constructor <;> exact ⟨rfl, by decide +kernel, ⟨_, rfl, rfl⟩, by decide +kernel, by decide +kernel, _, List.mem_singleton.mpr rfl, rfl, by decide +kernel⟩

/-- The finished sweep of a query, its merge due, in an index without or with a group of two members. -/
def finished0 (op members : Nat) : State := { at_ { base op 7 with work := { stage := 7, version := 5 }, payload := { pay with retr := word 256 [(240, 4), (192, 1)] } } with
  index := { live := [{ index with img := { index.img with members := members, shardMap := [1, 2], memberIds := [3, 9] } }] }
  sweep := { serving.sweep with finished := [{ run0 with lists := slateLists index.img (List.range 32) slate0 }], nextNo := 1 }
  fab := (partner9 serving).fab }

theorem witness_MergesEnd : (∀ op ∈ [0x01, 0x02], ∀ m ∈ [1, 2], ∃ w v p r, (finished0 op m).sweepOf 0 5 = some (w, 0) ∧
      (finished0 op m).liveVer w.version = some v ∧ w.slate[0]? = some p ∧ (finished0 op m).req 0 5 = some r ∧ r.work.stage = 7 ∧
      r.cancelling = false ∧ isGroup v.img r = decide (m = 2) ∧ (kRrN r.payload.rank = 0) ∧
      (m = 2 → ((finished0 op m).tick 0).partnersDone v.img w 0 = false ∧ w.slate = [p] ∧ p.fn = 0 ∧ p.tag = 5 ∧
        (finished0 op m).partnerDeadline v.img w.no ≤ max (finished0 op m).now 60000000000)) ∧
    (finished0 2 1).sweep.finished.find? (fun y => y.no = 1) = none := by
  refine ⟨?_, by decide +kernel⟩
  simp only [List.forall_mem_cons, List.not_mem_nil, false_implies, implies_true, and_true]
  refine ⟨⟨?_, ?_⟩, ?_, ?_⟩ <;> exact ⟨_, _, _, _, rfl, rfl, rfl, rfl, rfl, rfl, by decide +kernel, by decide +kernel, by decide +kernel⟩

/-- A result that waits for its partner's list, at its deadline. -/
theorem witness_MergesEnd_deadline : let s := finished0 2 2
    let r : Request := { base 0x02 7 with work := { stage := 7, version := 5, result := some {} } }
    (at_ r).req 0 5 = some r ∧ r.op ≠ 0x01 ∧ r.work.result.isSome = true ∧ (s.sweep.finished.find? (fun y => y.no = 0)).isSome = true := by
  decide +kernel

/-- Version 6 is under way, as the first one, as a later one, or for a group that another member owns. -/
def publishing (live : List IndexVer) (members member : Nat) : State := { serving with
  index := { live := live, pub := some { img := { index6 with members := members, member := member, shardMap := [2, 1], memberIds := [9, 3] }, digest := 6, imageId := 7, bytes := 1000, fn := 0, tag := 5, stored := true } }
  fab := (partner9 serving).fab }

theorem witness_IndexLoads : (∀ l ∈ [[], [index]], ∀ m ∈ [(1, 0), (2, 1)], ∃ p, (publishing l m.1 m.2).index.pub = some p ∧
    p.loaded = false ∧ p.stored = true ∧ (p.img.members ≤ 1 ↔ m.1 = 1) ∧
    (m.1 = 2 → (publishing l m.1 m.2).isOwner p.img = false)) := by
  simp only [List.forall_mem_cons, List.not_mem_nil, false_implies, implies_true, and_true]
  refine ⟨⟨?_, ?_⟩, ?_, ?_⟩ <;> exact ⟨_, rfl, rfl, rfl, by decide +kernel, by decide +kernel⟩

/-! ### Base steps -/

/-- Step 20 is in progress at 1.0 ms; step 21 begins at 1.05 ms. -/
theorem witness_StepsAndRecords : sweeping State.reset.mod.op = false ∧ sweeping (generating 4).mod.op = true ∧ (generating 4).step.begun = true ∧
    stepOf (max (generating 4).now 1049999) ≤ (generating 4).step.no ∧ (generating 4).step.no < stepOf (max (generating 4).now 1050000) ∧
    serving.step.begun = false ∧ serving.step.closing = none := by decide +kernel

/-- A step whose record waits to be written: of the stream above with its FINAL entry; of a shadowed one without acknowledgement. -/
def closing (covered : Nat) : State := { generating 4 with
  reqs := [{ genReq 4 with covered := covered, lc := true }]
  pair := { state := .paired }
  step := { no := 21, begun := true, closing := some { no := 20, stepEnd := 1050000, epoch := 0, shed := false, trimmed := false, catchup := false }, closed := [⟨0, 4, { entry := word 128 [(87, 1)] }, none⟩] } }

theorem witness_StepsAndRecords_closing : (closing 0).step.closing.any (fun c => !(closing 0).ackMissing c) = true ∧
    (closing 1).step.closing.any (fun c => (closing 1).ackMissing c) = true ∧ ((closing 0).seq.streams.map (·.slot)).Nodup ∧
    (∃ e ∈ (closing 0).step.closed, e.notice = none ∧ ((closing 0).streamAt e.slot).isSome = true) :=
  ⟨by decide +kernel, by decide +kernel, by decide +kernel, _, List.mem_singleton.mpr rfl, rfl, by decide +kernel⟩

/-- Slice 3 runs; the step is verified, or not. -/
def stepping (verified : Bool) : State := { generating 5 with step := { no := 20, begun := true, verified := verified, slices := [{ id := 3, model := 0, block := 0, handshakes := 10 }] } }
def drafted : ModelRes := { mainModel with img := { mainModel.img with draftId := 9 } }

theorem witness_StepWork : ((stepping true).tick 0).runMovers.runningSlice 3 = some { id := 3, model := 0, block := 0, handshakes := 10 } ∧ (stepping true).runMovers.tiers.queues = [] ∧
    (∃ st, (stepping true).streamAt 4 = some st ∧ (stepping true).model ((stepping true).slot 4).model = some mainModel ∧
      (stepping true).step.verified = true ∧ st.ending = none ∧ ((stepping true).slot 4).state = .decode ∧ mainModel.img.draftId ≠ 0 ∧ mainModel.img.resident = true) ∧
    (stepping false).step.begun = true ∧ (stepping false).step.verified = false ∧ serving.step.begun = false ∧
    ((stepping false).walkRow (verRow 0x3F800000 0)).any (fun w => !((stepping false).slot 4).isBe || !w.toks.isEmpty) = true ∧
    ((at_ { base 0x20 0 with load := some { image := signed (.model model5) } }).req 0 5).any (fun r => r.op == 0x20) = true :=
  ⟨by decide +kernel, rfl, ⟨_, rfl, by decide +kernel, rfl, rfl, by decide +kernel, by decide +kernel, rfl⟩, rfl, rfl, rfl, by decide +kernel, by decide +kernel⟩

/-- A stream of an LC request, in whose step the row chooses a token. -/
theorem witness_StepWork_lc : let s : State := { stepping false with seq := { (stepping false).seq with entries := [(4, { (stepping false).slot 4 with lc := true })] } }
    (s.slot 4).isBe = false ∧ (s.walkRow (verRow 0x3F800000 0)).any (fun w => !w.toks.isEmpty) = true := by decide +kernel

theorem witness_TreesAndWalks : 1 ≤ 2 ∧ draftTree [] 65 2 3 = rootTree 65 ∧
    (walkTree (walk 0 0x3F800000 9) 1 0 [] 0).2.1 = some .stoppedToken ∧ (walkTree (walk 0x3F800000 0 4) 1 0 [] 0).2.1 = some .stoppedLength := by
  decide +kernel

theorem witness_RecordParts : ∃ p ∈ partsOf [[{ entry := 0 }], [{ entry := 1 }]] [0], 1 < p.units.length + p.notices.length ∧ p.size < 2 ^ 32 :=
  ⟨_, List.mem_singleton.mpr rfl, by decide +kernel⟩

/-! ### Embedding pool -/

/-- The session toward module 9, a header from it, and what makes its message arrive. -/
def sess9 : Session := { idx := 0, ident := 9, lsess := 1, rsess := 2, state := .opened }
def hdr (msg cls : Nat) : BitVec 256 := mkHdr 3 9 1 2 0 msg cls 16
def begins (s : State) (t msg cls : Nat) : State := ((s.tick t).heard (hSrc (hdr msg cls))).modSession sess9.idx fun z => advanceSeq z cls
def arrives (s : State) (t msg cls : Nat) : Bool := (s.tick t).addressed (hdr msg cls) && decide ((s.tick t).sessionFor (hdr msg cls) = some sess9) && decide (sess9.rxSeq.getD (hClass (hdr msg cls)) 0 = hTseq (hdr msg cls)) && hdrOk msg cls (hdr msg cls) && decide (cls < 6)

theorem delivered {s : State} {t msg cls : Nat} (h : arrives s t msg cls = true) :
    s.Delivers t msg cls (hdr msg cls) (advanceSeq sess9 cls) (begins s t msg cls) := by
  simp only [arrives, Bool.and_eq_true, decide_eq_true_eq] at h
  exact delivers h.1.1.1.1 h.1.1.1.2 h.1.1.2 h.1.2 h.2

/-- A row request for row 1 (held, lost, in another version, 100 µs old) within, or beyond, the serve allotment. -/
def rowReq1 (time : Nat) : RowReqBody := { table := 8, version := 1, row := 1, time := time, key := 3 }

theorem witness_GatherRows_requests : (∃ x s1 d v, (pooled row1).Delivers 0 0x30 4 (hdr 0x30 4) x s1 ∧ s1.tableVer 8 1 = some d ∧
      s1.now ≤ (rowReq1 900000).time + 100000 ∧ s1.heldAt 8 1 1 900000 = some v ∧
      (if s1.pool.servedStep = stepOf s1.now then s1.pool.served else 0) + rowBytes d ≤ s1.entry 0x500003 ∧ s1.listOf 8 1 = none) ∧
    (∃ x s1 d v, ((pooled row1).setEntry 0x500003 63).Delivers 0 0x30 4 (hdr 0x30 4) x s1 ∧ s1.tableVer 8 1 = some d ∧
      s1.now ≤ (rowReq1 900000).time + 100000 ∧ s1.heldAt 8 1 1 900000 = some v ∧
      s1.entry 0x500003 < (if s1.pool.servedStep = stepOf s1.now then s1.pool.served else 0) + rowBytes d) ∧
    (∃ x s1, (pooled { row1 with lost := true }).Delivers 0 0x30 4 (hdr 0x30 4) x s1 ∧ s1.heldAt 8 1 1 900000 = none) ∧
    (∃ x s1, (pooled row1).Delivers 0 0x30 4 (hdr 0x30 4) x s1 ∧ s1.tableVer 8 2 = none ∧ (rowReq1 899999).time + 100000 < s1.now) :=
  ⟨⟨_, _, table8, row1.value, delivered (by decide +kernel), by decide +kernel⟩, ⟨_, _, table8, row1.value, delivered (by decide +kernel), by decide +kernel⟩,
   ⟨_, _, delivered (by decide +kernel), by decide +kernel⟩, ⟨_, _, delivered (by decide +kernel), by decide +kernel⟩⟩

/-- A gather of tag 5 that awaits `rows`. -/
def gathering (rows : List Nat) : State := { pooled row1 with reqs := [{ base 0x10 0 with desc := (desc 0x10 1 128 0 192).desc, gather := some (gather1, { table := 8, version := 1, time := 950000, epoch := 1, await := rows, have_ := [(1, row1.value)] }), work := { since := 950000 } }] }
def rowAns1 (v : Option RowVal) : RowAnsBody := { table := 8, row := 1, key := 5, value := v }

theorem witness_GatherRows_answers : (∃ x s1 r p g d, (gathering [1]).Delivers 0 0x31 4 (hdr 0x31 4) x s1 ∧
      s1.req ((rowAns1 none).key / 2 ^ 64) ((rowAns1 none).key % 2 ^ 64) = some r ∧ r.covered = 0 ∧ r.gather = some (p, g) ∧ g.table = 8 ∧
      g.await.contains 1 = true ∧ s1.tableVer g.table g.version = some d ∧ rowOk d row1.value = true) :=
  ⟨_, _, _, _, _, table8, delivered (by decide +kernel), rfl, rfl, rfl, rfl, rfl, by decide +kernel⟩

theorem witness_GatherRows_ends : (∃ r p g, (gathering [1]).req 0 5 = some r ∧ r.gather = some (p, g) ∧ g.await.contains 1 = true ∧
      r.work.since + (gathering [1]).entry 0x500004 ≤ max (gathering [1]).now 10000000000 ∧
      max ({ gathering [1] with now := 950000 } : State).now 0 < r.work.since + (gathering [1]).entry 0x500004) ∧
    (∃ r p g d, (gathering []).req 0 5 = some r ∧ r.gather = some (p, g) ∧ r.round = none ∧ g.await = [] ∧
      (gathering []).tableVer g.table g.version = some d ∧ r.mirror = false ∧ r.silent = false ∧ (0 : Nat) < 64) :=
  ⟨⟨_, _, _, rfl, rfl, rfl, by decide +kernel, by decide +kernel⟩, ⟨_, _, _, table8, rfl, rfl, rfl, rfl, by decide +kernel, rfl, rfl, by decide⟩⟩

/-- Two deltas wait for window 7 at row 1, from modules 9 and 4. -/
def queued : State := { pooled { row1 with prev := [(400000, ⟨[0], []⟩), (350000, ⟨[1], []⟩)] } with pool := { (pooled { row1 with prev := [(400000, ⟨[0], []⟩), (350000, ⟨[1], []⟩)] }).pool with closedTo := 7, queue := [⟨7, 8, 1, 9, 0, deltaKey 8 1 7, [0x3F800000#32], none⟩, ⟨7, 8, 1, 4, 0, deltaKey 8 1 7, [0x40000000#32], none⟩] } }

theorem witness_WindowsAddInOrder : queued.pool.migration = none ∧ queued.pool.closedTo = 7 ∧ (7 + 2) * 50000 ≤ max queued.now 0 ∧
    queued.table 8 = some table8 ∧ queued.homeHere 8 1 = true ∧ (queued.poolRow 8 1 1).any (fun r => !r.lost) = true ∧
    (queued.pool.queue.filter fun q => q.window = 7 && q.table = 8 && q.row = 1) ≠ [] ∧ max queued.now 0 < (19 + 2) * 50000 ∧
    6 < queued.pool.closedTo ∧ (queued.pool.queue.map fun q => (q.source, q.seq)).Nodup ∧ (7 + 3) * 50000 ≤ max queued.now 0 ∧
    (7 + 3) * 50000 + 100000 ≤ max queued.now 0 ∧
    (∀ x ∈ queued.pool.tables, ∀ r ∈ x.rows, r.prev.Pairwise fun a b => b.1 < a.1) ∧ (∀ r ∈ queued.pool.replicas, r.prev.Pairwise fun a b => b.1 < a.1) := by
  decide +kernel

/-- A delta from module 9 for row 1: fitting, of another version, for a row that does not exist. -/
def delta1 (version row : Nat) : DeltaBody := { table := 8, version := version, row := row, window := 20, deltas := [0x3F800000#32] }

theorem witness_DeltasAndReplicas_deltas : ∃ x s1, (pooled row1).Delivers 0 0x32 4 (hdr 0x32 4) x s1 ∧ s1.table 8 = some table8 ∧ s1.isSelf x.ident = false ∧
    s1.pairHalf 8 1 = false ∧ (delta1 1 1).origin = none ∧ s1.migrating 8 1 false = false ∧ s1.pair.state ≠ .paired ∧
    table8.version = (delta1 1 1).version ∧ table8.trainable = true ∧ (delta1 1 1).row < table8.rowCount ∧ (delta1 1 1).deltas.length = table8.dim ∧
    s1.homeHere 8 1 = true ∧ (s1.bufferedRows (max 20 s1.pool.closedTo)).length < 65536 ∧ table8.version ≠ (delta1 2 1).version ∧
    table8.rowCount ≤ (delta1 1 4).row := ⟨_, _, delivered (by decide +kernel), by decide +kernel⟩

/-- Row 1 of another module's table, sent as a replica. -/
def elsewhere : State := { partner9 serving with
  dict := { serving.dict with held := (0x500002, 1) :: serving.dict.held }
  pool := { haveMap := true, epoch := 1, descs := [table8], ranges := [mkRange 8 9 0 3 false] } }

/-- A migration of rows 0 and 1 of table 8: not frozen, frozen, copied with its cut. -/
def migrating (frozen : Bool) (cut : Option Nat) : State := { pooled row1 with
  reqs := [{ base 0x12 0 with publish := some (publish 2 none) }]
  pool := { (pooled row1).pool with closedTo := 20, migration := some { table := 8, lo := 0, hi := 1, newHome := 9, freeze := 20, frozen := frozen, copied := cut.isSome, cut := cut, fn := 0, tag := 5 } } }

/-- The same while row 1 migrates from here, with W_F window 20; and at the row's new home, from its old one for module 4. -/
theorem witness_DeltasAndReplicas_migration : (∃ x s1 m, (migrating false none).Delivers 0 0x32 4 (hdr 0x32 4) x s1 ∧ s1.table 8 = some table8 ∧
      s1.isSelf x.ident = false ∧ s1.pairHalf 8 1 = false ∧ s1.pool.migration = some m ∧ m.incoming = false ∧ m.table = 8 ∧ m.lo ≤ 1 ∧ 1 ≤ m.hi ∧
      m.freeze ≤ (delta1 1 1).window ∧ (delta1 1 1).window < 2 ^ 64 ∧ s1.partner m.newHome = true) ∧
    (∃ x s1, elsewhere.Delivers 0 0x32 4 (hdr 0x32 4) x s1 ∧ s1.table 8 = some table8 ∧ s1.isSelf x.ident = false ∧ s1.pairHalf 8 1 = false ∧
      ({ delta1 1 1 with origin := some 4 } : DeltaBody).origin = some 4 ∧ s1.homeHere 8 1 = false ∧ s1.homeOf 8 1 = x.ident ∧
      s1.pool.migration = none ∧ (s1.bufferedRows 20).length < 65536) :=
  ⟨⟨_, _, _, delivered (by decide +kernel), by decide +kernel, by decide +kernel, by decide +kernel, rfl, by decide +kernel⟩,
   ⟨_, _, delivered (by decide +kernel), by decide +kernel⟩⟩

/-- An update that waits for one answer, or for two. -/
def updating (keys : List Nat) : State := { pooled row1 with reqs := [{ base 0x11 0 with update := some (update1, { window := 20, homes := keys }) }] }

theorem witness_DeltasAndReplicas_answers : ∀ keys ∈ [[7], [7, 8]], ∃ x s1 r p u, (updating keys).Delivers 0 0x33 4 (hdr 0x33 4) x s1 ∧
    s1.pool.forwarded.filter (fun p => p.1 = 7) = [] ∧ s1.req 0 5 = some r ∧ r.update = some (p, u) ∧ u.homes.contains 7 = true ∧
    (u.homes.filter (· ≠ 7) = [] ↔ keys = [7]) := by
  simp only [List.forall_mem_cons, List.not_mem_nil, false_implies, implies_true, and_true]
  constructor <;> exact ⟨_, _, _, _, _, delivered (by decide +kernel), by decide +kernel, rfl, rfl, by decide +kernel, by decide +kernel⟩

/-- Row 1 was read more often than the threshold by module 9. -/
def hot : State := { pooled row1 with pool := { (pooled row1).pool with reads := [(8, 1, 9, 100000)] } }

theorem witness_DeltasAndReplicas_hot : hot.pool.lists = [] ∧ hot.homeHere 8 1 = true ∧ hot.entry 0x500005 < 100000 ∧ hot.table 8 = some table8 ∧
    hot.poolRow 8 table8.version 1 = some row1 ∧ row1.lost = false ∧ hot.isSelf 9 = false ∧ hot.partner 9 = true ∧ 1 ≤ hot.entry 0x500006 ∧
    (pooled row1).pool.reads = [] := by decide +kernel

/-- Row 1, sent as a replica. -/
def replica1 (r : Option Nat) : ReplicaBody := { table := 8, version := 1, row := 1, value := row1.value, remove := r }

theorem witness_DeltasAndReplicas_replica : ∃ x s1, elsewhere.Delivers 0 0x34 4 (hdr 0x34 4) x s1 ∧ x.ident = s1.homeOf 8 1 ∧
    (replica1 (some 5)).remove = some 5 ∧ (replica1 none).remove = none ∧ s1.tableVer 8 1 = some table8 ∧ rowOk table8 row1.value = true ∧
    s1.poolRow 8 1 1 = none ∧ (∀ r ∈ s1.pool.replicas, r.table ≠ 8 ∨ r.row ≠ 1) ∧
    s1.rowRoom table8 (replica1 none).copy = true :=
  ⟨_, _, delivered (by decide +kernel), by decide +kernel⟩

/-- The same at its switch: rows 0 and 1 have module 9 as their home. -/
def switched : State := { migrating true (some 1050000) with pool := { (migrating true (some 1050000)).pool with ranges := [mkRange 8 9 0 1 false, mkRange 8 3 2 3 false] } }

theorem witness_MapsAndMigration_maps : (∃ x s1, elsewhere.Delivers 0 0x35 4 (hdr 0x35 4) x s1 ∧ mapOk map2 = true ∧ laterEpoch map2.epoch s1.pool.epoch.toNat = true ∧
      mapOk { map2 with epoch := 2 ^ 32 } = false ∧ s1.pool.haveMap = true ∧ laterEpoch 1 s1.pool.epoch.toNat = false) ∧
    (∃ s : State, s.pool.staged = [{ switchTime := 5, map := some map2, loaded := true, fn := 65536, tag := 0 }]) ∧
    (∀ p ∈ (pooled row1).pool.staged, p.fn ≠ 65536 ∨ max (pooled row1).now 0 < p.switchTime) :=
  ⟨⟨_, _, delivered (by decide +kernel), by decide +kernel⟩, ⟨{ serving with pool := { staged := [_] } }, rfl⟩, by decide +kernel⟩

theorem witness_MapsAndMigration_moves : (∀ s ∈ [migrating false none, migrating true none, migrating true (some 1050000)], s.pool.migration.any (fun m => !m.incoming) = true) ∧
    stepOf (max 0 999999) < 20 ∧ 20 ≤ stepOf (max (migrating false none).now 0) ∧ (migrating true none).table 8 = some table8 ∧
    20 ≤ (migrating true none).pool.closedTo ∧ (∃ m, (migrating true none).pool.migration = some m ∧
      ((migrating true none).frozenRows m table8).length * rowBytes table8 ≤ ((migrating true none).tick 1050000).copyRoom m) ∧ max (migrating true (some 1050000)).now 1049999 < 1050000 ∧
    switched.homeHere 8 0 = false ∧ (switched.req 0 5).any (fun r => r.publish.isSome) = true ∧ 1050000 ≤ max switched.now 1050000 := by decide +kernel

/-- A part of table 8 is staged for 2 ms, not loaded. -/
def staging : State := { pooled row1 with
  reqs := [{ base 0x12 0 with publish := some (publish 0 none) }]
  pool := { (pooled row1).pool with staged := [{ switchTime := 2000000, table := some part8, fn := 0, tag := 5 }] } }

theorem witness_MapsAndMigration_abandon : (staging.stagedFor 8).any (fun p => !p.loaded && published p && decide (max staging.now 1499999 + 500000 < p.switchTime)
      && decide (p.switchTime ≤ max staging.now 1500000 + 500000) && (staging.req p.fn p.tag).any fun r => r.publish.isSome) = true := by decide +kernel

theorem witness_MapsAndMigration_parts : ∃ p ∈ staging.pool.staged, p.table.any (fun x => x.desc.tableId = 8) = true ∧
    max staging.now 1500000 + 500000 ≤ p.switchTime ∧ p.switchTime < max staging.now 1500001 + 500000 :=
  ⟨_, List.mem_singleton.mpr rfl, by decide +kernel⟩

theorem witness_RowsAreRebuilt : ∀ l, let s := pooled { row1 with lost := l }
    s.table 8 = some table8 ∧ (s.poolTable 8 1).any (fun x => x.desc.trainable && decide (s.rebuilt x 1 = some ⟨[0x3F800000], []⟩)) = true ∧
    s.poolRow 8 1 1 = some { row1 with lost := l } ∧ (∀ q ∈ s.pool.queue, q.table ≠ 8 ∨ q.row ≠ 1) := by decide +kernel

/-! ### Links, sessions, time -/

/-- Port 1 as `x` makes it of one with lanes 0 and 1 in service, toward module 9; `port0` is such a port 0. -/
def lanes2 : Port := { lanes := [⟨true, true, true⟩, ⟨true, true, true⟩, ⟨true, true, false⟩, ⟨true, false, false⟩], inService := true, neighbour := 9, rxSeq := 7, txSeq := 5, replay := [(3, 0), (4, 6)] }
def linked (x : Port) : State := { partner9 serving with fab := { (partner9 serving).fab with ports := {} :: x :: List.replicate 14 {} } }

/-- A link frame: sequence number, acknowledgement, NAK, class. -/
def frame (n a k c : Nat) : BitVec 128 := word 128 [(112, n), (96, a), (93, c), (92, k), (77, 2), (64, 5)]

theorem witness_Links_training : 1 < (linked {}).fab.ports.length ∧ 3 < ((linked {}).port 1).lanes.length ∧
    (((linked lanes2).port 1).lanes.getD 3 {}).trained = true ∧ (((linked {}).port 1).lanes.getD 3 {}).trained = false ∧
    ((linked lanes2).port 1).lanes.any (·.fec) = true ∧ ((linked {}).port 1).lanes.any (·.fec) = false ∧
    ((linked {}).port 1).inService = false ∧ (((linked lanes2).port 1).lanes.getD 2 {}).fec = true ∧
    (((linked lanes2).port 1).lanes.getD 2 {}).inService = false := by decide +kernel

/-- Sequence number 7 is expected: 7 is in order, 6 a duplicate, 8 and 1030 early, 1031 and 32774 beyond the window. -/
theorem witness_Links_frames : ((linked lanes2).port 1).inService = true ∧
    (∀ x ∈ [(7, 0), (6, 65535), (32775, 32768), (8, 1), (1030, 1023), (1031, 1024), (32774, 32767)],
      (lSeq (frame x.1 0 0 0) + 65536 - ((linked lanes2).port 1).rxSeq.toNat) % 65536 = x.2 ∧ frameOk (frame x.1 0 0 0) true = true ∧
      lNak (frame x.1 0 0 0) = false) ∧ frameOk (frame 7 0 0 6) true = false ∧ frameOk (frame 7 0 0 0) false = false := by decide +kernel

theorem witness_Links_replay : ((linked {}).port 1).replay = [] ∧ ((linked lanes2).port 1).replay ≠ [] ∧
    (∀ f ∈ ((linked lanes2).port 1).replay, f.2 < 7) ∧ (((linked lanes2).port 1).lanes.getD 0 {}).inService = true ∧
    (∃ f ∈ ((linked { lanes2 with replay := [(3, 7)] }).port 1).replay, 7 ≤ f.2) := by
  refine ⟨by decide +kernel, by decide +kernel, by decide +kernel, by decide +kernel, (3, 7), by decide +kernel, by decide⟩

/-- What a link frame in order does: it is taken, acknowledges frame 3, and returns 5 units of class 2. -/
theorem test_link_frame : gives (.linkFrameReceive 0 1 (frame 7 3 0 0) true) (linked lanes2) (fun s =>
    decide (s.port 1 = ({ lanes2 with rxSeq := 8, replay := [(4, 6)], credits := [0, 0, 5, 0, 0, 0] } : Port)) && s.out == []) = true := by decide +kernel

/-- A heartbeat to module 9 waits for a port that has `n` credits of class 1. -/
def txWaits (n : Nat) : State := (linked { lanes2 with credits := [0, n, 0, 0, 0, 0] }).emit (.fabric 9 0x46 [] (timeWire 5))

theorem witness_Links_departures : (∀ q ∈ (txWaits 2).tx.waiting, q.cls ≤ 1 ∧ q.len ≤ 4064 ∧ (txWaits 2).portOf q = some 1 ∧
      q.credits ≤ ((txWaits 2).port 1).credits.getD q.cls 0) ∧ (txWaits 2).tx.waiting.length = 1 ∧ ((txWaits 2).port 1).replay.length < 1024 ∧
    (∀ q ∈ (linked lanes2).tx.waiting, (linked lanes2).portOf q ≠ some 1) := by decide +kernel

/-- R277: without the credits for its whole size a frame waits; with them it leaves and spends them. -/
theorem test_credits : gives (.linkFrameReceive 0 1 (frame 7 3 0 0) true) (txWaits 1) (fun s => s.tx.waiting.length == 1 && (s.port 1).txSeq == 5) = true ∧
    gives (.linkFrameReceive 0 1 (frame 7 3 0 0) true) (txWaits 2) (fun s => s.tx.waiting == [] && (s.port 1).txSeq == 6 &&
      (s.port 1).credits == [0, 0, 5, 0, 0, 0] && (s.port 1).replay == [(4, 6), (5, 0)]) = true := by decide +kernel

/-- R279, R280: a message of 5,000 bytes goes in two fragments, FIRST, then LAST at offset 4,064; the next one of its class has the next TSEQ. -/
theorem test_fragments : let s := ((linked lanes2).emit (.fabric 9 0x20 [] (List.replicate 5000 0))).emit (.fabric 9 0x22 [] [1])
    s.tx.waiting.map (fun q => (hTseq q.hdr, hMsg q.hdr, bits q.hdr.toNat 116 115, bits q.hdr.toNat 63 32, hLen q.hdr, q.len))
      = [(0, 0x20, 2, 0, 5000, 4064), (0, 0x20, 1, 4064, 5000, 936), (1, 0x22, 3, 0, 1, 1)] := by decide +kernel

/-- R277: of waiting frames of classes 5, 2 and 0 the one of class 0 leaves first. -/
theorem test_class_order :
    (({ linked { lanes2 with credits := [9, 9, 9, 9, 9, 9] } with tx := { waiting := [⟨5, 9, 1, 8, none⟩, ⟨2, 9, 2, 8, none⟩, ⟨0, 9, 3, 8, none⟩] } } : State).departAll 1).out.map
      (fun o => match o with | .link _ _ v => v.getLast? | _ => none) = [some 3, some 2, some 1] := by decide +kernel

theorem witness_Sessions_open : let h := mkHdr 3 8 0 7 0 0x01 5 16
    (partner9 serving).addressed h = true ∧ hdrOk 0x01 5 h = true ∧ hDsess h = 0 ∧
    (∀ x ∈ (partner9 serving).fab.sessions, x.ident ≠ hSrc h) ∧ (partner9 serving).fab.sessions.length < 4096 := by decide +kernel

/-- The partner table full of sessions that wait for their answer, so that none may be closed. -/
def fullTable (n : Nat) : State := { partner9 serving with fab := { (partner9 serving).fab with
  sessions := (List.range n).map fun i => { idx := i, ident := 100 + i, lsess := 1 + i, state := .opening } } }

theorem fullTable_room (n : Nat) (h : 4096 ≤ n) : ((fullTable n).tick 0).roomSession.2 = none := by
  have a : (((fullTable n).tick 0).fab.sessions.map (·.idx)) = List.range n := by
    show ((List.range n).map _).map _ = _
    simp [List.map_map, Function.comp_def]
  have b : (takeFree (((fullTable n).tick 0).fab.sessions.map (·.idx)) (((fullTable n).tick 0).fab.sessions.length + 1) 1 0).head?.filter (· < 4096) = none := by
    rw [a]
    cases h : (takeFree (List.range n) (((fullTable n).tick 0).fab.sessions.length + 1) 1 0).head? with
    | none => rfl
    | some x =>
      have := takeFree_free (List.mem_of_mem_head? (Option.mem_def.mpr h))
      simp only [List.contains_eq_mem, List.mem_range, decide_eq_false_iff_not] at this
      have : ¬ x < 4096 := by omega
      simpa using this
  have c : ((fullTable n).tick 0).victimSession = none := by
    have : ((fullTable n).tick 0).fab.sessions.filter ((fullTable n).tick 0).evictable = [] := by
      rw [List.filter_eq_nil_iff]
      show ∀ x ∈ (List.range n).map _, _
      intro x hx
      obtain ⟨i, -, rfl⟩ := List.mem_map.mp hx
      simp [State.evictable]
    rw [State.victimSession, this]; rfl
  simp only [State.roomSession, b, c]

theorem fullTable_idents (n : Nat) : ∀ x ∈ (fullTable n).fab.sessions, x.ident ≠ 8 := by
  show ∀ x ∈ (List.range n).map _, _
  intro x hx
  obtain ⟨i, -, rfl⟩ := List.mem_map.mp hx
  show 100 + i ≠ 8
  omega

theorem witness_Sessions_full (n : Nat) (h : 4096 ≤ n) : hSrc (mkHdr 3 8 0 7 0 0x01 5 16) = 8 ∧ (fullTable n).addressed (mkHdr 3 8 0 7 0 0x01 5 16) = true ∧
    (∀ x ∈ (fullTable n).fab.sessions, x.ident ≠ 8) ∧ ((fullTable n).tick 0).roomSession.2 = none :=
  ⟨by decide +kernel, by rfl, fullTable_idents n, fullTable_room n h⟩

/-- This module waits for module 8's answer since 980 µs. -/
def opening : State := { partner9 serving with fab := { (partner9 serving).fab with sessions := [{ idx := 1, ident := 8, lsess := 5, state := .opening, openedAt := 980000 }] } }

theorem witness_Sessions_answers : (∀ msg ∈ [0x02, 0x03], opening.addressed (mkHdr 3 8 5 7 0 msg 5 16) = true ∧
      (opening.openFor (mkHdr 3 8 5 7 0 msg 5 16)).isSome = true ∧ hdrOk msg 5 (mkHdr 3 8 5 7 0 msg 5 16) = true) ∧
    (∃ x, opening.fab.sessions.find? (fun x => x.state = .opening && x.ident = 8) = some x ∧ x.openedAt + 20000 ≤ max opening.now 0 ∧
      max ({ opening with now := 0 } : State).now 999999 < x.openedAt + 20000) := by
  refine ⟨by decide +kernel, _, rfl, by decide +kernel, by decide +kernel⟩

theorem witness_Sessions_close : ∃ x s1, (partner9 serving).Delivers 0 0x04 5 (hdr 0x04 5) x s1 ∧ s1.routedTo x.idx = [] ∧
    (partner9 serving).fab.sessions.find? (fun x => x.idx = 0 && x.state = .opened) = some sess9 ∧
    max (partner9 serving).now 2999999 < sess9.lastRx + 3000000 ∧ sess9.lastRx + 3000000 ≤ max (partner9 serving).now 3000000 ∧
    (partner9 serving).routedTo 0 = [] := ⟨_, _, delivered (by decide +kernel), by decide +kernel⟩

theorem witness_Sessions_keepalive : ∃ x s1, (partner9 serving).Delivers 0 0x05 5 (hdr 0x05 5) x s1 ∧
    ∃ y ∈ s1.fab.sessions, y.ident = x.ident ∧ y.state = .opened :=
  ⟨_, _, delivered (by decide +kernel), advanceSeq { sess9 with lastRx := 1000000 } 5, by decide +kernel⟩

/-- R284: one delay of 700 ns makes a path bound of 2.7 µs. -/
theorem test_path_bound : gives (.keepalive 0 (hdr 0x05 5) 999300) (partner9 serving)
    (fun s => (s.session 9).map (·.pathNs) == some 2700) = true := by decide +kernel

theorem witness_TimeStates : ((linked lanes2).port 1).inService = true ∧ ((linked lanes2).port 0).inService = false ∧
    (∀ o ∈ [(1000001 : Int), -1000001], 1000000 < o.natAbs) ∧ (250 : Int).natAbs ≤ 250 ∧ (-251 : Int).natAbs > 250 ∧
    (1000000 : Int).natAbs ≤ 1000000 ∧ 15 ≤ ({ good := 15 } : PtpState).good ∧ serving.ptp.good < 15 ∧ serving.ptp.state = .locked ∧
    State.reset.ptp.state ≠ .locked ∧ (let s : State := { serving with ptp := { state := .holdover, holdoverAt := 5 } }
      s.ptp.holdoverAt + 10000000000 ≤ max s.now 10000000005 ∧ max s.now 10000000004 < s.ptp.holdoverAt + 10000000000) := by decide +kernel

/-- R442: the 16th Sync within 250 ns in a row locks, one beyond 250 ns begins the row anew. -/
theorem test_sync_locks : ∀ x ∈ [((250 : Int), TimeState.locked, 16), (-250, .locked, 16), (251, .acquiring, 0)],
    gives (.ptpSync 0 1 x.1 true) { linked lanes2 with ptp := { good := 15 } } (fun s => s.ptp.state == x.2.1 && min s.ptp.good 16 == x.2.2) = true := by
  decide +kernel

/-! ### Index groups and hand-offs -/

/-- Version 6 of a group, loaded here; module 9 owns its slates. -/
def loadedPub : State := { publishing [index] 2 1 with index := { (publishing [index] 2 1).index with pub := (publishing [index] 2 1).index.pub.map fun p => { p with loaded := true } } }
def control (kind : Nat) : PublishControlBody := { kind := kind, index := true, version := 6, value := 3, status := .internalFault }

theorem witness_GroupControl_publications : (∃ x s1 p m, loadedPub.Delivers 0 0x08 5 (hdr 0x08 5) x s1 ∧ s1.index.pub = some p ∧
      memberOf p.img x.ident = some m ∧ p.img.version = (control 1).version ∧ s1.isOwner p.img = false ∧ m = s1.owner p.img ∧ p.loaded = true ∧
      s1.index.live = [index]) ∧
    (∃ x s1, (partner9 serving).Delivers 0 0x08 5 (hdr 0x08 5) x s1 ∧ s1.index.pub = none ∧ 3 < (control 4).kind ∧
      ({ control 2 with index := false } : PublishControlBody).kind = 2) :=
  ⟨⟨_, _, _, 0, delivered (by decide +kernel), rfl, by decide +kernel⟩, ⟨_, _, delivered (by decide +kernel), by decide +kernel⟩⟩

/-- A live index of a group of modules 3 and 9, in which this module is `member`. -/
def grouped (member : Nat) : IndexVer := { index with img := { index.img with members := 2, member := member, shardMap := [1, 2], memberIds := if member = 0 then [3, 9] else [9, 3] } }
def inGroup (member next : Nat) (from_ : List (Nat × Nat)) (closed : List (Nat × List SlatePos)) : State := { partner9 (at_ (query id)) with
  index := { live := [grouped member] }, sweep := { serving.sweep with nextNo := next, groupFrom := from_, closed := closed } }

theorem witness_GroupControl_parts : (∃ x s1, (inGroup 0 0 [] []).Delivers 0 0x10 2 (hdr 0x10 2) x s1 ∧ s1.imgOf 0 = some (grouped 0) ∧
      memberOf (grouped 0).img x.ident = some 1 ∧ s1.openSweep = 0 ∧ s1.isOwner (grouped 0).img = true ∧ s1.sweep.groupFrom.contains (0, 1) = false) ∧
    (∃ x s1, (inGroup 1 0 [] []).Delivers 0 0x10 2 (hdr 0x10 2) x s1 ∧ s1.isOwner (grouped 1).img = false ∧ memberOf (grouped 1).img x.ident = some 0) ∧
    (∃ x s1, (inGroup 0 1 [] []).Delivers 0 0x10 2 (hdr 0x10 2) x s1 ∧ 0 < s1.sweep.nextNo ∧ memberOf (grouped 0).img x.ident = some 1) ∧
    (∃ x s1, (inGroup 0 0 [(0, 1)] []).Delivers 0 0x10 2 (hdr 0x10 2) x s1 ∧ s1.sweep.groupFrom.contains (0, 1) = true ∧ memberOf (grouped 0).img x.ident = some 1) :=
  ⟨⟨_, _, delivered (by decide +kernel), by decide +kernel⟩, ⟨_, _, delivered (by decide +kernel), by decide +kernel⟩,
   ⟨_, _, delivered (by decide +kernel), by decide +kernel⟩, ⟨_, _, delivered (by decide +kernel), by decide +kernel⟩⟩

theorem witness_GroupControl_slates : (∃ x s1, (inGroup 1 0 [] [(0, [posOf 1 (query id)])]).Delivers 0 0x11 2 (hdr 0x11 2) x s1 ∧ s1.imgOf 0 = some (grouped 1) ∧
      memberFab (grouped 1).img (s1.owner (grouped 1).img) = x.ident ∧ getKey s1.sweep.closed 0 = some [posOf 1 (query id)] ∧
      (posOf 1 (query id)).member = 1 ∧ (s1.req 0 5).isSome = true) ∧
    (∃ x s1, (inGroup 0 0 [] []).Delivers 0 0x11 2 (hdr 0x11 2) x s1 ∧ s1.imgOf 0 = some (grouped 0) ∧
      memberFab (grouped 0).img (s1.owner (grouped 0).img) ≠ x.ident) :=
  ⟨⟨_, _, delivered (by decide +kernel), by decide +kernel⟩, ⟨_, _, delivered (by decide +kernel), by decide +kernel⟩⟩

/-- R121: the owner's slate leaves the query out, so it is trimmed and waits for another sweep. -/
theorem test_slate_trims : gives (.slate 0 (hdr 0x11 2) 0 []) (inGroup 1 0 [] [(0, [posOf 1 (query id)])])
    (fun s => getKey s.sweep.closed 0 == some [] && (s.req 0 5).any fun r => r.work.trimmed) = true := by decide +kernel

/-- Sweep 0 of the query above has run; the list of member 1, version 5, is for position 0 or 1. -/
def listing (pos dk : Nat) : PartnerListBody := { header := word 512 [(336, 5), (320, 2), (304, 1), (288, pos), (272, 1), (256, dk)], entries := [word 128 [(112, 2), (48, 7)]] }
def awaitingList : State := { finished0 2 2 with reqs := [{ base 0x02 7 with work := { stage := 7, version := 5 } }] }

theorem witness_PartnerMessages_lists : ∃ x s1, awaitingList.Delivers 0 0x12 2 (hdr 0x12 2) x s1 ∧ bits (listing 0 0).header.toNat 252 0 = 0 ∧
    ((listing 0 0).entries.all fun e => bits e.toNat 15 0 = 0) = true ∧ s1.listTarget x.ident (listing 1 0) false = none ∧
    s1.listTarget x.ident (listing 0 0) false = some (0, 5) ∧ (s1.req 0 5).any (fun r => r.covered = 0 && r.work.result.isNone) = true ∧
    (s1.sweepNo (plSweep (listing 0 0).header)).isSome = true :=
  ⟨_, _, delivered (by decide +kernel), by decide +kernel⟩

/-- Scores or passages of records 0 and 1, of version 5 or 4. -/
def cands (version : Nat) (passages : Bool) : CandBody := { tag := 5, version := version, passages := passages, items := [{ ord := 0 }, { ord := 1 }] }

theorem witness_PartnerMessages_requests : (∃ x s1, (partner9 serving).Delivers 0 0x13 2 (hdr 0x13 2) x s1 ∧ s1.liveVer 4 = none ∧ s1.liveVer 5 = some index ∧
      sweeping s1.mod.op = true ∧ (if s1.pool.candSlot = s1.now / 1000000 then s1.pool.candServed else 0) + candBytes index.img (cands 5 true) ≤ s1.entry 0x310002) ∧
    (∃ x s1, ((partner9 serving).setEntry 0x310002 16383).Delivers 0 0x13 2 (hdr 0x13 2) x s1 ∧ candBytes index.img (cands 5 true) = 16384 ∧
      s1.entry 0x310002 < (if s1.pool.candSlot = s1.now / 1000000 then s1.pool.candServed else 0) + candBytes index.img (cands 5 true)) :=
  ⟨⟨_, _, delivered (by decide +kernel), by decide +kernel⟩, ⟨_, _, delivered (by decide +kernel), by decide +kernel⟩⟩

/-- A request of module 3 that waits for the scores of shard 2 from member 1. -/
def awaitingCands : State := { partner9 (at_ { base 0x02 8 with work := { stage := 8, version := 5, since := 1000000, remote := [2], sources := [(2, 1)], cands := [{ id := 2 * 2 ^ 48 }] } }) with index := { live := [grouped 0] } }

theorem witness_PartnerMessages_answers : ∃ x s1, awaitingCands.Delivers 0 0x14 2 (hdr 0x14 2) x s1 ∧ s1.candTarget x.ident (cands 5 true) false = none ∧
    (s1.candTarget x.ident (cands 5 false) false).any (fun y => y.2 = 2 && y.1.covered = 0 && decide (s1.req y.1.fn y.1.tag = some y.1)) = true :=
  ⟨_, _, delivered (by decide +kernel), by decide +kernel⟩

/-- A hand-off of tag 8 from module 9, which takes its records itself, of the prompt 65 66; `rsvd` stands in its reserved bits. -/
def handing (rsvd : Nat) : HandoffBody := { header := word 512 [(448, 8), (416, 9), (384, 1), (352, 2), (320, 9), (0, rsvd)], promise := word 256 [(24, 1)], gen := word 512 [(480, 4), (352, 1), (248, 1), (240, 1)], opts := 0, stops := [], prompt := [65, 66] }
def target : State := (partner9 serving).setEntry 0xA01003 1

theorem witness_Handoffs_stopped : ∃ x s1, ((partner9 serving).setEntry 0xA01003 0).Delivers 0 0x20 3 (hdr 0x20 3) x s1 ∧ bits (handing 1).header.toNat 319 0 ≠ 0 ∧
    bits (handing 0).header.toNat 319 0 = 0 ∧ s1.req (1000 + x.idx) (hoTag (handing 0).header) = none ∧ (s1.fab.sessions.map (·.idx)).Nodup ∧ s1.fab.kept = [] ∧
    s1.checkHandoff (handing 0) (handGen (handing 0).gen (hoTokens (handing 0).header)) = some .accessDenied :=
  ⟨_, _, delivered (by decide +kernel), by decide +kernel⟩

/-- The answer to it is kept until 2 ms. -/
theorem witness_Handoffs_duplicate : ∃ x s1, ({ target with fab := { target.fab with kept := [⟨9, 8, 2000000, .done, 5⟩] } } : State).Delivers 0 0x20 3 (hdr 0x20 3) x s1 ∧
    (s1.fab.kept.find? fun k => k.origin = hoOrigin (handing 0).header && k.tag = hoTag (handing 0).header && s1.now < k.until_).isSome = true :=
  ⟨_, _, delivered (by decide +kernel), by decide +kernel⟩

theorem witness_Handoffs_admitted : ∃ x s1 y n s2, target.Delivers 0 0x20 3 (hdr 0x20 3) x s1 ∧ s1.req (1000 + x.idx) (hoTag (handing 0).header) = none ∧
    s1.fab.kept = [] ∧ s1.checkHandoff (handing 0) (handGen (handing 0).gen (hoTokens (handing 0).header)) = none ∧
    s1.modelId (gModel (handGen (handing 0).gen (hoTokens (handing 0).header))) 1 = some mainModel ∧ s1.session (hoReturn (handing 0).header) = some y ∧
    s1.stepChoices (s1.handRequest x (handing 0)) mainModel = [n] ∧ s1.handStream x y (handing 0) mainModel n = some s2 ∧ membersOf mainModel ≤ 1 ∧
    s1.pair.state ≠ .paired := by
  obtain ⟨s2, h⟩ := Option.isSome_iff_exists.mp (show ((begins target 0 0x20 3).handStream (advanceSeq sess9 3)
    (advanceSeq { sess9 with lastRx := 1000000 } 3) (handing 0) mainModel 1).isSome = true by decide +kernel)
  exact ⟨_, _, _, 1, s2, delivered (by decide +kernel), by decide +kernel, by decide +kernel, by decide +kernel, by decide +kernel, by decide +kernel, by decide +kernel, h, by decide, by decide +kernel⟩

/-- An ASK of tag 5 awaits module 9's answer, the first of `n` targets. -/
def asking (n : Nat) : State := { partner9 (at_ { base 0x01 14 with work := { stage := 14, awaiting := some 9 }, payload := { pay with rank := word 512 [(448, n), (288, 9), (256, 8)] } }) with
  fab := { (partner9 serving).fab with sessions := [sess9, { idx := 1, ident := 8, lsess := 3, rsess := 4, state := .opened }] } }

theorem witness_Handoffs_answers : ∀ n ∈ [1, 2], ∃ x s1, (asking n).Delivers 0 0x21 3 (hdr 0x21 3) x s1 ∧
    (s1.reqs.find? (fun r => r.tag = 5 && r.work.stage = 14 && r.mirror = false && r.work.awaiting = some x.ident)).any
      (fun r => r.covered = 0 && decide (s1.req r.fn r.tag = some r) && decide ((handTargets r).drop (r.work.attempt + 1) = if n = 1 then [] else [8])) = true ∧
    s1.partner 8 = true ∧ s1.fab.handles = [] ∧
    s1.reqs.find? (fun r => r.tag = 6 && r.work.stage = 14 && r.mirror = false && r.work.awaiting = some x.ident) = none := by
  simp only [List.forall_mem_cons, List.not_mem_nil, false_implies, implies_true, and_true]
  constructor <;> exact ⟨_, _, delivered (by decide +kernel), by decide +kernel⟩

/-- Module 9 handed off a stream of tag 5 to this module, and ends it, or one it did not hand off. -/
theorem witness_Handoffs_cancels : ∃ x s1, (partner9 (at_ { genReq 4 with fn := 1000, origin := 1 })).Delivers 0 0x22 3 (hdr 0x22 3) x s1 ∧
    (s1.reqs.find? (fun r => r.origin = x.idx + 1 && r.tag = 5)).any (fun r => r.round.isNone) = true ∧
    s1.reqs.find? (fun r => r.origin = x.idx + 1 && r.tag = 6) = none := ⟨_, _, delivered (by decide +kernel), by decide +kernel⟩

/-- Module 9 runs function 0's stream of tag 5 under handle 7; its record has the FINAL entry of handle 7, or of 8. -/
def handed : State := { partner9 serving with fab := { (partner9 serving).fab with handles := [(9, 7, 0, 5)] } }
def recordOf (n : Nat) : RecordBody := { header := 0, streams := [{ entry := word 128 [(96, n), (87, 1)] }], notices := [] }

theorem witness_Handoffs_records : ∃ x s1, handed.Delivers 0 0x23 3 (hdr 0x23 3) x s1 ∧
    (∀ p ∈ (recordOf 8).streams, ∀ h ∈ s1.fab.handles, h.1 ≠ x.ident ∨ h.2.1 ≠ eHandle p.entry) ∧
    (∀ p ∈ (recordOf 7).streams, s1.fab.handles.find? (fun h => h.1 = x.ident && h.2.1 = eHandle p.entry) = some (9, 7, 0, 5) ∧ eFinal p.entry = true) ∧
    (s1.fn 0).sbr.enable = true ∧ (s1.fn 0).sbr.ovf = [] ∧ (recOut (recordFor 0 (recordOf 7) (recordOf 7).streams)).len < (s1.fn 0).sbr.free :=
  ⟨_, _, delivered (by decide +kernel), by decide +kernel⟩

/-! ### Mirror pairs -/

/-- Ports 0 and 1 stand in service toward module 9, the pair peer; the pair is in state `p`. -/
def beside (p : PairState) (s : State) : State := { (partner9 s).setEntry 0xA10001 9 with
  fab := { (partner9 s).fab with ports := lanes2 :: lanes2 :: List.replicate 14 {} }, pair := { state := p, lastRx := 1000000 } }
/-- The same as module 12, which answers for 3. -/
def upper (p : PairState) : State := { beside p serving with fab := { (beside p serving).fab with ident := 12, alsoId := [3] } }

theorem witness_PairAdmission_offers : (∃ x s1, (upper .forming).Delivers 0 0x40 1 (hdr 0x40 1) x s1 ∧ x.ident = s1.peer ∧ x.ident < s1.fab.ident ∧
      canForm s1.pair.state = true ∧ s1.pairReady = true ∧ s1.entry 0x101002 ≠ s1.entry 0x101002 + 1 ∧
      s1.sameStore (5, s1.sweep.origin, 12000, true) = true ∧ s1.sameStore (5, s1.sweep.origin, 12001, true) = false) ∧
    (∃ x s1, (beside .survivor serving).Delivers 0 0x40 1 (hdr 0x40 1) x s1 ∧ s1.fab.ident ≤ x.ident) ∧
    (∃ x s1, (beside .survivor serving).Delivers 0 0x41 1 (hdr 0x41 1) x s1 ∧ x.ident = s1.peer ∧ s1.fab.ident < s1.peer ∧
      canForm s1.pair.state = true ∧ s1.pairReady = true) ∧
    (∃ x s1, (upper .split).Delivers 0 0x41 1 (hdr 0x41 1) x s1 ∧ s1.peer ≤ s1.fab.ident) :=
  ⟨⟨_, _, delivered (by decide +kernel), by decide +kernel⟩, ⟨_, _, delivered (by decide +kernel), by decide +kernel⟩,
   ⟨_, _, delivered (by decide +kernel), by decide +kernel⟩, ⟨_, _, delivered (by decide +kernel), by decide +kernel⟩⟩

/-- The peer admits a GENERATE of its function 0 on its image of digest `d`. -/
def admitted (d : Nat) : PairAdmitBody := { desc := (desc 0x06 0 448 0 0).desc, payload := pay, admitT := 1000000, reflect := false, fn := 0, handle := handleOf 4 1, digest := d }

theorem witness_PairAdmission_admits : (∃ x s1, (beside .paired serving).Delivers 0 0x42 1 (hdr 0x42 1) x s1 ∧ s1.mod.op = .serving ∧ s1.pair.state = .paired ∧
      x.ident = s1.peer ∧ s1.digestHere (mirrorRequest (admitted 7)) = (admitted 7).digest ∧ s1.digestHere (mirrorRequest (admitted 8)) ≠ (admitted 8).digest ∧
      s1.req 2000 77 = none ∧ ((s1.admitMirror (mirrorRequest (admitted 7)) (admitted 7)).req 2000 77).isSome = true) ∧
    (∃ x s1, (beside .paired full).Delivers 0 0x42 1 (hdr 0x42 1) x s1 ∧ s1.pair.state = .paired ∧ s1.digestHere (mirrorRequest (admitted 7)) = (admitted 7).digest ∧
      (s1.admitMirror (mirrorRequest (admitted 7)) (admitted 7)).req 2000 77 = none) ∧
    (∃ x s1, (beside .forming serving).Delivers 0 0x42 1 (hdr 0x42 1) x s1 ∧ s1.pair.state ≠ .paired) :=
  ⟨⟨_, _, delivered (by decide +kernel), by decide +kernel⟩, ⟨_, _, delivered (by decide +kernel), by decide +kernel⟩,
   ⟨_, _, delivered (by decide +kernel), by decide +kernel⟩⟩

/-- A GENERATE of tag 5 whose admission asks the peer since 995 µs. -/
def inRound : State := beside .paired (at_ { base 0x06 20 with gen := true, covered := 1, round := some ⟨false, 995000, []⟩, promise := { handle := handleOf 4 1, steps := 1 } })

theorem witness_PairAdmission_answers : (∃ x s1, inRound.Delivers 0 0x43 1 (hdr 0x43 1) x s1 ∧ x.ident = s1.peer ∧
      (s1.reqs.find? (fun r => r.tag = 5 && r.round.any fun d => !d.split)).any (fun r => r.gather.isNone && r.update.isNone) = true ∧
      s1.reqs.find? (fun r => r.tag = 6 && r.round.any fun d => !d.split) = none) ∧
    (inRound.req 0 5).any (fun r => r.round.any fun d => !d.split && decide (max ({ inRound with now := 0 } : State).now 997999 < d.since + 3000)
      && decide (d.since + 3000 ≤ max 0 998000)) = true ∧ inRound.pair.state = .paired :=
  ⟨⟨_, _, delivered (by decide +kernel), by decide +kernel⟩, by decide +kernel, by decide +kernel⟩

/-- The peer's stream of tag 5 in slot 4, mirrored here as a shadow. -/
def shadow : State := beside .paired { generating 4 with
  reqs := [{ genReq 4 with fn := 2000, mirror := true, covered := 1 }]
  seq := { (generating 4).seq with streams := [{ slot := 4, fn := 2000, tag := 5, modelId := 1, promptToks := [65], toks := [66, 67, 68], tree := [⟨0, 68, 1⟩] }] } }

theorem witness_PairLife_steps : (∃ x s1, shadow.Delivers 0 0x44 1 (hdr 0x44 1) x s1 ∧ s1.pair.state = .paired ∧ x.ident = s1.peer ∧
      ((s1.mirrorSwitch []).reqAt 4).any (fun r => r.mirror && r.covered == 1) = true ∧
      (∀ q ∈ (s1.mirrorSwitch []).reqs, q.mirror = true → q.gen = true → q.promise.handle / 65536 = 4)) ∧
    (∃ x s1, (beside .split serving).Delivers 0 0x44 1 (hdr 0x44 1) x s1 ∧ s1.pair.state ≠ .paired) ∧
    (∃ x s1, shadow.Delivers 0 0x45 1 (hdr 0x45 1) x s1 ∧ x.ident = s1.peer) ∧
    (∃ x s1, (partner9 serving).Delivers 0 0x45 1 (hdr 0x45 1) x s1 ∧ x.ident ≠ s1.peer) :=
  ⟨⟨_, _, delivered (by decide +kernel), by decide +kernel⟩, ⟨_, _, delivered (by decide +kernel), by decide +kernel⟩,
   ⟨_, _, delivered (by decide +kernel), by decide +kernel⟩, ⟨_, _, delivered (by decide +kernel), by decide +kernel⟩⟩

theorem witness_PairLife_losses : shadow.pair.acked < 19 ∧ (18 + 1) * 50000 + 8000 ≤ max shadow.now 0 ∧ (19 + 1) * 50000 + 8000 ≤ max shadow.now 1008000 ∧
    max shadow.now 1007999 < (19 + 1) * 50000 + 8000 ∧ shadow.pair.state = .paired ∧ (∃ p ∈ shadow.fab.ports, p.inService = true) ∧
    shadow.addressed (hdr 0x46 1) = true ∧ hdrOk 0x46 1 (hdr 0x46 1) = true ∧ hSrc (hdr 0x46 1) = shadow.peer ∧
    hdrOk 0x46 1 (hdr 0x46 2) = false ∧ shadow.pair.probing = false ∧ shadow.pair.lastRx + 8000 ≤ max shadow.now 1008000 ∧
    max shadow.now 1007999 < shadow.pair.lastRx + 8000 ∧ shadow.directPorts ≠ [] := by
  refine ⟨by decide +kernel, by decide +kernel, by decide +kernel, by decide +kernel, by decide +kernel, ⟨lanes2, by decide +kernel, rfl⟩, ?_⟩
  decide +kernel

/-- No direct port; probes left at 1 ms. -/
def probing (answered : Bool) : State := { beside .paired serving with fab := (partner9 serving).fab, pair := { state := .paired, probing := true, probeAt := 1000000, answered := answered } }

theorem witness_PairLife_probes : (probing true).directPorts = [] ∧ ({ probing true with pair := { state := .paired } } : State).directPorts = [] ∧
    (probing true).pair.probing = true ∧ (probing true).pair.answered = true ∧ (probing false).pair.answered = false ∧
    (probing false).pair.probeAt + 12000 ≤ max (probing false).now 1012000 := by decide +kernel

theorem witness_PairLife_takeovers : shadow.addressed (hdr 0x47 1) = true ∧ hdrOk 0x47 1 (hdr 0x47 1) = true ∧ (3 : Nat) = shadow.fab.ident ∧
    (9 : Nat) ≠ shadow.fab.ident ∧ (9 : Nat) = shadow.peer ∧ (8 : Nat) ≠ shadow.peer := by decide +kernel

/-- R306: fenced by the takeover, this module keeps nothing of the pair and waits in FORMING. -/
theorem test_takeover : gives (.takeover 0 (hdr 0x47 1) 3 9) shadow (fun s => s.pair.state == .forming && s.reqs == []) = true := by decide +kernel

/-! ### SPDM -/

/-- Function 0's mailbox has come to level `n`; it has session 1, secured or not; the lifecycle is `l`. -/
def spdm (l : Lifecycle) (n : Nat) (secured : Bool) : State := { serving with sec := { serving.sec with life := l, versionSent := [(false, 0, n)], spdm := [{ etnan := false, chan := 0, sid := 1, secured := secured }] } }

theorem witness_SpdmResponder : (∀ l ∈ [Lifecycle.blank, .opened, .sealed, .retired], ∀ n ∈ [0, 1, 2, 3], (spdm l n false).spdmOn 0 false = true ∧
      (spdm l n false).spdmLevel 0 false = n) ∧ (15 % 16 = 15) ∧
    (spdm .sealed 3 false).spdmSession 0 false 1 false = true ∧ (spdm .opened 3 true).spdmSession 0 false 1 true = true ∧
    (partner9 serving).spdmOn 0 true = true := by decide +kernel

/-- R426: before GET_VERSION every other request is unexpected; afterwards the connection can go on. -/
theorem test_spdm_order : gives (.getCapabilities 0 0 false) serving (fun s => s.out == [.spdm false 0 0x7F [4]]) = true ∧
    gives (.getVersion 0 0 false) serving (fun s => gives (.getCapabilities 0 0 false) s fun r => r.spdmLevel 0 false == 2) = true := by decide +kernel

/-! ### The object dictionary -/

/-- A request PDU of station 1 on CAN FD: operation, entry, FIRST, LAST, offset, total, data. -/
def pdu (op key first last off total : Nat) (data : List Byte) : Pdu := { transport := .can, channel := 0, ident := 0x185, data := data, header := word 128 [(120, op), (104, 1), (72, key), (65, last), (64, first), (48, off), (32, total), (16, data.length)] }

/-- One whole write of a value. -/
def writing (key : Nat) (value : List Byte) : Pdu := pdu 2 key 1 1 0 value.length value

/-- Station 1's session as `g` makes it of a custodian's. -/
def talking (g : DictSession → DictSession) (s : State) : State := { s with dict := { s.dict with
  held := (0x103001, 5) :: s.dict.held, sessions := [g { transport := .can, channel := 0, station := 1, role := .custodian, lastPdu := 900000 }] } }

/-- The session and the state in which a PDU's operation begins. -/
def sessOf (s : State) (t : Nat) (p : Pdu) : DictSession := ((s.tick t).count 0x103010 1).freshParts (((s.tick t).count 0x103010 1).sessionOf p p.header.toNat)
def begun (s : State) (t : Nat) (p : Pdu) : State := ((s.tick t).count 0x103010 1).putSession (sessOf s t p)
def reaches (s : State) (t : Nat) (p : Pdu) : Bool := let h := p.header.toNat
  decide ((s.tick t).arrived p = some (h, p.data)) && decide (p.transport = .can) && !(s.tick t).canBusy p h && decide (p.waiting < 64) && headerOk p.transport h
    && decide (pLen h = p.data.length) && !(lenOf (pOp h)).any (· ≠ pLen h)

theorem served {s : State} {t : Nat} {p : Pdu} (c : reaches s t p = true) : s.Serves t p p.header.toNat p.data (sessOf s t p) (begun s t p) := by
  simp only [reaches, Bool.and_eq_true, decide_eq_true_eq, Bool.not_eq_eq_eq_not, Bool.not_true] at c
  obtain ⟨⟨⟨⟨⟨⟨a, b⟩, c⟩, d⟩, e⟩, f⟩, g⟩ := c
  exact ⟨_, _, a, by simp [b], c, d, e, by simp [f], g, by simp [f], rfl, rfl⟩

/-- A last PDU that brings a whole value to an entry that may be written. -/
def written (s : State) (t : Nat) (p : Pdu) : Bool := let h := p.header.toNat
  reaches s t p && pOp h == 2 && pFirst h && pLast h && pOffset h == 0 && pTotal h == p.data.length && (odFind (pKey h)).any fun r =>
    decide (r.acc ≠ .const) && decide (r.acc ≠ .ro) && decide (r.wr.code ≤ (sessOf s t p).role.code) && lengthOk r (pKey h) p.data.length
      && writeState (begun s t p).mod.op r (pKey h)

theorem writes {s : State} {t : Nat} {p : Pdu} (c : written s t p = true) :
    s.Writes t p p.header.toNat (pKey p.header.toNat) p.data p.data (sessOf s t p) ((begun s t p).dropPartial (sessOf s t p)) := by
  simp only [written, Bool.and_eq_true, beq_iff_eq] at c
  obtain ⟨⟨⟨⟨⟨⟨a, b⟩, f⟩, l⟩, o⟩, n⟩, r⟩ := c
  obtain ⟨r, hr, x⟩ := (Option.any_eq_true _ _).mp r
  simp only [Bool.and_eq_true, decide_eq_true_eq] at x
  exact ⟨r, _, [], served a, b, rfl, hr, x.1.1.1.1, x.1.1.1.2, x.1.1.2, by simp [heldBefore, f, o, n], rfl, l, x.1.2, x.2, rfl⟩

/-- A whole write of a value by station 1 whose hypotheses hold, besides `g` of its session and of the state in which its rules begin. -/
def Meets (s : State) (key : Nat) (value : List Byte) (g : DictSession → State → Bool) : Prop :=
  ∃ d s2, s.Writes 0 (writing key value) (writing key value).header.toNat key value value d s2 ∧ g d s2 = true

theorem meets {s : State} {key : Nat} {value : List Byte} {g : DictSession → State → Bool}
    (c : (written s 0 (writing key value) && pKey (writing key value).header.toNat == key
      && g (sessOf s 0 (writing key value)) ((begun s 0 (writing key value)).dropPartial (sessOf s 0 (writing key value)))) = true) : Meets s key value g := by
  simp only [Bool.and_eq_true, beq_iff_eq] at c
  have w := writes c.1.1
  rw [c.1.2] at w
  exact ⟨_, _, w, c.2⟩

/-- Station 1 reads as a custodian, or, with `g`, otherwise; what it reads: entry, first offset, allowed. -/
def reading (g : DictSession → DictSession) (key off : Nat) : State × Pdu := (talking g serving, pdu 1 key 0 0 off 0 [])

theorem witness_DictionaryReads_parts : (∃ d s1 r v, (reading id 0x101001 0).1.Serves 0 (reading id 0x101001 0).2 (reading id 0x101001 0).2.header.toNat [] d s1 ∧
      odFind 0x101001 = some r ∧ r.acc ≠ .wo ∧ r.rd.code ≤ d.role.code ∧ s1.readValue d r 0x101001 = .ok v ∧ d.snapshot = none) ∧
    (∃ d s1, (reading (fun d => { d with snapshot := some (0x103008, List.replicate 60 1, 48, 990000) }) 0x103008 48).1.Serves 0 (reading id 0x103008 48).2
      (reading id 0x103008 48).2.header.toNat [] d s1 ∧ d.snapshot = some (0x103008, List.replicate 60 1, 48, 990000) ∧ 48 < (List.replicate 60 (1 : Byte)).length) ∧
    (∃ d s1, (reading (fun d => { d with role := .observer }) 0x800006 0).1.Serves 0 (reading id 0x800006 0).2 (reading id 0x800006 0).2.header.toNat [] d s1 ∧
      (odFind 0x800006).any (fun r => decide (d.role.code < r.rd.code)) = true ∧ (odFind 0x102002).any (fun r => r.acc == .wo) = true) ∧
    (∃ d s1, (reading id 0x800006 0).1.Serves 0 (reading id 0x800006 0).2 (reading id 0x800006 0).2.header.toNat [] d s1 ∧
      (odFind 0x800006).any (fun r => decide (r.rd.code ≤ d.role.code) && decide (r.acc ≠ .wo)) = true) := by
  refine ⟨⟨_, _, _, _, served (by decide +kernel), by rfl, by decide +kernel, by decide +kernel, by rfl, by decide +kernel⟩, ⟨_, _, served (by decide +kernel), by decide +kernel⟩,
    ⟨_, _, served (by decide +kernel), by decide +kernel⟩, ⟨_, _, served (by decide +kernel), by decide +kernel⟩⟩

theorem witness_DictionaryReads_others : (∀ x ∈ [(3, 0x101001), (4, 0x101001), (1, 0x101099), (3, 0x101099), (5, 0)],
      reaches (talking id serving) 0 (pdu x.1 x.2 0 0 0 0 []) = true ∧ pOp (pdu x.1 x.2 0 0 0 0 []).header.toNat = x.1 ∧ pKey (pdu x.1 x.2 0 0 0 0 []).header.toNat = x.2) ∧
    odFind 0x101099 = none ∧ (odNext 0x101001).any (fun k => (odFind k).isSome) = true := by decide +kernel

/-- A session that was challenged for operator under the nonce 7; the PDU that proves with `mac`. -/
def challenged : State := let s := (talking (fun d => { d with role := .observer, nonce := some (7, .operator, 1000000) }) serving).setEntry 0x103004 1
  { s with sec := { s.sec with roleKeys := [(1, List.replicate 48 3)] } }
def proof (mac : List Byte) : Pdu := { pdu 7 0 0 0 0 0 (List.replicate 48 0) with data := mac }
def nonced : DictSession := { transport := .can, channel := 0, station := 1, lastPdu := 1000000, nonce := some (7, .operator, 1000000) }

theorem sessionOf_proof (s : State) (h : Nat) (a b : List Byte) : s.sessionOf (proof a) h = s.sessionOf (proof b) h := rfl

theorem witness_RolesAndFrames_proofs (mac : List Byte) (e : mac.length = 48) (h : hmac384 (List.replicate 48 3) (proofBytes 7 .operator nonced) = mac) :
    ∃ d s1, challenged.Serves 0 (proof mac) (proof mac).header.toNat mac d s1 ∧ pOp (proof mac).header.toNat = 7 ∧ d.nonce = some (7, .operator, 1000000) ∧
      getKey s1.sec.roleKeys 1 = some (List.replicate 48 3) ∧ s1.lockedOut .can = false ∧ s1.now ≤ 1000000 + 1000000000 ∧
      Role.operator.code ≤ (s1.roleCeiling d.transport d.channel).code ∧ hmac384 (List.replicate 48 3) (proofBytes 7 .operator d) = mac := by
  refine ⟨nonced, ((challenged.tick 0).count 0x103010 1).putSession nonced, ⟨mac, challenged.tick 0, ?_, rfl, ?_, (by decide : 0 < 64), ?_, ?_, ?_, ?_, ?_, rfl⟩,
    (by decide +kernel : pOp (proof []).header.toNat = 7), rfl, by decide +kernel,
    by decide +kernel, by decide +kernel, by decide +kernel, h⟩
  · exact (by decide +kernel : (challenged.tick 0).hubRuns = true ∧ (challenged.tick 0).canOn = true ∧ (challenged.tick 0).inForce 0x103001 = 5) |> fun x => by
      simp [State.arrived, x.1, x.2.1, x.2.2, proof, pdu]
  · exact (by decide +kernel : (challenged.tick 0).canBusy (proof []) (proof []).header.toNat = false)
  · exact (by decide +kernel : headerOk .can (proof []).header.toNat = true)
  · exact le_of_le_of_eq (by decide +kernel : pLen (proof []).header.toNat ≤ 48) e.symm
  · exact (by decide +kernel : (lenOf (pOp (proof []).header.toNat)).any (· ≠ pLen (proof []).header.toNat) = false)
  · rw [(by exact (by decide +kernel : pLen (proof []).header.toNat = 48) : pLen (proof mac).header.toNat = 48), ← e, List.take_length]
  · rw [sessionOf_proof _ _ mac []]; exact (by decide +kernel : nonced = ((challenged.tick 0).count 0x103010 1).freshParts
      (((challenged.tick 0).count 0x103010 1).sessionOf (proof []) (proof []).header.toNat))

/-- Such a MAC has 48 bytes. -/
theorem test_mac_length : (hmac384 (List.replicate 48 3) (proofBytes 7 .operator nonced)).length = 48 := by decide +kernel

theorem witness_RolesAndFrames_failures : ∀ n ∈ [6, 7], ∃ d s1, (talking id { serving with dict := { serving.dict with fails := [(.can, n)] } }).Serves 0
      (proof (List.replicate 48 0)) (proof []).header.toNat (List.replicate 48 0) d s1 ∧ d.nonce = none ∧ s1.lockedOut .can = false ∧ s1.failsOf .can = n := by
  simp only [List.forall_mem_cons, List.not_mem_nil, false_implies, implies_true, and_true]
  constructor <;> exact ⟨_, _, served (by decide +kernel), by decide +kernel⟩

theorem witness_RolesAndFrames_challenges : (∀ x ∈ [(6, [1]), (6, [0]), (6, [9]), (8, [])], reaches (talking id serving) 0 (pdu x.1 0 0 0 0 0 x.2) = true ∧
      pOp (pdu x.1 0 0 0 0 0 x.2).header.toNat = x.1) ∧ Role.ofCode (ofLe ([1] : List Byte)) = some .operator ∧ Role.ofCode (ofLe ([0] : List Byte)) = some .observer ∧
    Role.ofCode (ofLe ([9] : List Byte)) = none ∧ (getKey serving.sec.roleKeys 1).isSome = true := by decide +kernel

/-- A queue with a heartbeat, a response and an event. -/
def queueing : List CanFrame := [{ kind := 7, bytes := [] }, { kind := 2, bytes := [], station := 1 }, { kind := 1, bytes := [] }]

theorem witness_RolesAndFrames_frames : serving.mod.op ≠ .off ∧ serving.canOn = true ∧ (∃ f ∈ queueing, f.kind = 1) ∧
    (∃ f ∈ queueing.take 2, f.kind = 2 ∧ ∀ g ∈ queueing.take 2, g.kind ≠ 1) ∧ (∃ f ∈ queueing.take 1, f.kind = 7 ∧ ∀ g ∈ queueing.take 1, g.kind ≠ 1 ∧ g.kind ≠ 2) ∧
    State.reset.mod.op = .off ∧ serving.dict.canQueue = [] ∧ serving.dict.canPending = [] ∧ serving.dict.canWaiting = [] := by
  refine ⟨by decide +kernel, by decide +kernel, ⟨_, by simp [queueing]; exact .inr (.inr rfl), rfl⟩, by decide +kernel, by decide +kernel, by decide +kernel, by decide +kernel, by decide +kernel, by decide +kernel⟩

theorem witness_HeartbeatFrame : serving.entry 0x103002 ≠ 0 ∧ serving.canOn = true ∧ serving.hubRuns = true ∧ (serving.setEntry 0x103002 0).entry 0x103002 = 0 ∧
    ({ serving with faults := { serving.faults with canDown := true } } : State).canOn = false ∧ State.reset.hubRuns = false := by decide +kernel

/-- R349: READY, the power state, LOCKED, UNPAIRED, OPEN, D0. -/
theorem test_heartbeat : gives (.canHeartbeat 0) { serving with mod := { serving.mod with op := .ready } }
    (fun s => s.dict.canQueue.map (·.bytes) == [[3, 0, 1, 0, 1, 0, 0, 0]]) = true := by decide +kernel

/-- The module in an operating state, with a session of role custodian. -/
def inOp (o : OpState) : State := talking id { serving with mod := { serving.mod with op := o } }
def inLife (o : OpState) (l : Lifecycle) (b : DebugLevel) : State := talking id { serving with mod := { serving.mod with op := o }, sec := { serving.sec with life := l, debug := b } }

theorem witness_StateCommands_service : Meets (inOp .ready) 0x102002 [1] (fun _ s => s.mod.op == .ready && s.sec.life != .blank && s.sec.debug != .d3) ∧
    Meets (inOp .serving) 0x102002 [1] (fun _ s => s.mod.op != .ready && s.mod.op != .draining) ∧
    Meets (inOp .serving) 0x102002 [2] (fun _ s => s.mod.op == .serving) ∧ Meets (inOp .ready) 0x102002 [2] (fun _ s => s.mod.op != .serving) ∧
    Meets (inOp .ready) 0x102002 [3] (fun _ s => s.mod.op == .ready && s.noRequest && s.sec.debug != .d3) ∧ Meets (inOp .serving) 0x102002 [3] (fun _ s => s.mod.op != .ready) ∧
    Meets (inOp .retained) 0x102002 [4] (fun _ s => s.mod.op == .retained) ∧ Meets (inOp .dark) 0x102002 [4] (fun _ s => s.mod.op != .retained) :=
  ⟨meets (by decide +kernel), meets (by decide +kernel), meets (by decide +kernel), meets (by decide +kernel), meets (by decide +kernel), meets (by decide +kernel),
   meets (by decide +kernel), meets (by decide +kernel)⟩

theorem witness_StateCommands_restarts : Meets (talking (fun d => { d with role := .operator }) serving) 0x102002 [5] (fun d _ => d.role != .custodian) ∧
    (∀ o ∈ [OpState.ready, .retained], Meets (inOp o) 0x102002 [5] (fun d s => d.role == .custodian && s.mod.op == o && s.noRequest)) ∧
    (∀ o ∈ [OpState.ready, .retained, .dark], Meets (inOp o) 0x102002 [6] (fun d s => d.role == .custodian && s.mod.op == o && s.noRequest)) ∧
    Meets (inOp .draining) 0x102002 [6] (fun _ s => s.mod.op == .draining) ∧
    (∀ o ∈ [OpState.ready, .retained, .dark], Meets (inOp o) 0x900004 [4] (fun _ s => s.mod.op == o && s.noRequest)) ∧
    Meets (inOp .serving) 0x900004 [4] (fun _ s => s.mod.op == .serving) := by
  simp only [List.forall_mem_cons, List.not_mem_nil, false_implies, implies_true, and_true]
  exact ⟨meets (by decide +kernel), ⟨meets (by decide +kernel), meets (by decide +kernel)⟩, ⟨meets (by decide +kernel), meets (by decide +kernel), meets (by decide +kernel)⟩,
    meets (by decide +kernel), ⟨meets (by decide +kernel), meets (by decide +kernel), meets (by decide +kernel)⟩, meets (by decide +kernel)⟩

/-- With owner keys and a provisioning token. -/
def keyed (s : State) : State := { s with sec := { s.sec with imageKeys := List.replicate 2592 1, debugKeys := List.replicate 2592 2, provToken := [1] } }

theorem witness_StateCommands_lifecycle : Meets (keyed (inLife .ready .blank .d0)) 0x800003 [3] (fun _ s => s.still && s.sec.life == .blank && s.sec.provToken != []) ∧
    Meets (inLife .dark .blank .d0) 0x800003 [3] (fun _ s => s.still && s.sec.provToken == []) ∧
    Meets (keyed (inLife .ready .opened .d0)) 0x800003 [1] (fun _ s => s.still && s.sec.life == .opened && ownerKeys s.sec.imageKeys == 1 && ownerKeys s.sec.debugKeys == 1) ∧
    Meets (inLife .ready .opened .d0) 0x800003 [1] (fun _ s => ownerKeys s.sec.imageKeys == 0) ∧
    Meets (inLife .ready .sealed .d0) 0x800003 [2] (fun _ s => s.still && s.sec.life == .sealed) ∧ Meets (inOp .serving) 0x800003 [2] (fun _ s => !s.still) :=
  ⟨meets (by decide +kernel), meets (by decide +kernel), meets (by decide +kernel), meets (by decide +kernel), meets (by decide +kernel), meets (by decide +kernel)⟩

theorem witness_StateCommands_debug : (∀ b ∈ [DebugLevel.d0, .d1, .d3], Meets (inLife .ready .opened b) 0x800004 [0] (fun _ s => s.sec.debug == b) ∧
      Meets (inLife .ready .opened b) 0x800004 [1] (fun _ s => s.sec.debug == b)) ∧
    (let s : State := { serving with sec := { serving.sec with debug := .d2, expiry := 2000000 } }
     s.sec.expiry ≤ max s.now 2000000 ∧ max s.now 1999999 < s.sec.expiry) := by
  simp only [List.forall_mem_cons, List.not_mem_nil, false_implies, implies_true, and_true]
  exact ⟨⟨⟨meets (by decide +kernel), meets (by decide +kernel)⟩, ⟨meets (by decide +kernel), meets (by decide +kernel)⟩, meets (by decide +kernel), meets (by decide +kernel)⟩,
    by decide +kernel⟩
/-- Station 1 has sent `held`, the first 4,667 bytes of a debug token; this is the last part. -/
def tokened (held : List Byte) : State := talking (fun d => { d with partialW := some (0x800004, 4715, held, 990000), debugNonce := some (0, 500000) })
  { serving with mod := { serving.mod with op := .ready } }
def lastPart : Pdu := pdu 2 0x800004 0 1 4667 4715 (List.replicate 48 0)

theorem tokened_reaches (held : List Byte) : reaches (tokened held) 0 lastPart = reaches (tokened []) 0 lastPart := rfl
theorem tokened_op (held : List Byte) : (begun (tokened held) 0 lastPart).mod.op = .ready := rfl

theorem tokened_now (held : List Byte) : (tokened held).now = 1000000 := rfl

theorem tokened_sessions (held : List Byte) : (((tokened held).tick 0).count 0x103010 1).dict.sessions = [{ transport := .can, channel := 0, station := 1, role := .custodian, lastPdu := 900000, partialW := some (0x800004, 4715, held, 990000), debugNonce := some (0, 500000) }] := rfl
theorem lastPart_station : pStation lastPart.header.toNat = 1 := by decide +kernel

theorem tokened_count (held : List Byte) : (((tokened held).tick 0).count 0x103010 1).now = 1000000 := rfl

theorem tokened_found (held : List Byte) : (((tokened held).tick 0).count 0x103010 1).sessionOf lastPart lastPart.header.toNat = { transport := .can, channel := 0, station := 1, role := .custodian, lastPdu := 1000000, partialW := some (0x800004, 4715, held, 990000), debugNonce := some (0, 500000) } := by
  have c : ∀ d : DictSession, d.lastPdu = 900000 → (((tokened held).tick 0).count 0x103010 1).canStale d = false := fun d h => by
    rw [State.canStale, tokened_count, h]; simp
  have p : newSession lastPart lastPart.header.toNat (((tokened held).tick 0).count 0x103010 1).now = { transport := .can, channel := 0, station := 1, lastPdu := 1000000 } := by
    rw [newSession, lastPart_station, tokened_count]; rfl
  rw [State.sessionOf, p, tokened_sessions]
  simp only [List.find?, DictSession.is, decide_true, Bool.and_self, c, tokened_count, Bool.false_eq_true, if_false]

theorem tokened_session (held : List Byte) : (sessOf (tokened held) 0 lastPart).partialW = some (0x800004, 4715, held, 990000) ∧
    (sessOf (tokened held) 0 lastPart).role = .custodian ∧ (sessOf (tokened held) 0 lastPart).debugNonce = some (0, 500000) := by
  have e : (((tokened held).tick 0).count 0x103010 1).expired 990000 = false := by rw [State.expired, tokened_count]; decide
  rw [sessOf, tokened_found, State.freshParts]
  exact ⟨by simp only [Option.filter, e, Bool.not_false, if_true], rfl, rfl⟩

theorem tokened_writes (held : List Byte) (l : held.length = 4667) : (tokened held).Writes 0 lastPart lastPart.header.toNat 0x800004 (List.replicate 48 0) (held ++ List.replicate 48 0)
    (sessOf (tokened held) 0 lastPart) ((begun (tokened held) 0 lastPart).dropPartial (sessOf (tokened held) 0 lastPart)) := by
  obtain ⟨row, h⟩ := (Option.any_eq_true (fun row : EntryRow => row.acc == .wo && row.wr == .custodian && lengthOk row 0x800004 4715 && writeState .ready row 0x800004)
    (odFind 0x800004)).mp (by decide +kernel)
  simp only [Bool.and_eq_true, beq_iff_eq] at h
  refine ⟨row, _, held, served ((tokened_reaches held).trans (by decide +kernel)), by decide +kernel, by decide +kernel, h.1, by simp [h.2.1.1.1], by simp [h.2.1.1.1], ?_, ?_, rfl,
    by decide +kernel, ?_, by rw [tokened_op]; exact h.2.2, rfl⟩
  · exact Nat.le_of_eq (by rw [h.2.1.1.2, (tokened_session held).2.1])
  · simp only [heldBefore, (tokened_session held).1, (by decide +kernel : pFirst lastPart.header.toNat = false), (by decide +kernel : pOffset lastPart.header.toNat = 4667)]
    simp [l]
  · simpa [l] using h.2.1.2

/-- The bytes of a token for level `k` that expires at 2 ms, of key 0, serial number 0 and nonce 0; what follows them is `rest`. -/
def tokenStart (k : Byte) : List Byte := k :: List.replicate 7 0 ++ [0x80, 0x84, 0x1E, 0, 0, 0, 0, 0] ++ List.replicate 72 0

theorem tokened_after (held : List Byte) : ((begun (tokened held) 0 lastPart).dropPartial (sessOf (tokened held) 0 lastPart)).now = 1000000 := rfl
theorem tokened_still (held : List Byte) : ((begun (tokened held) 0 lastPart).dropPartial (sessOf (tokened held) 0 lastPart)).still = true := rfl
theorem tokened_serial (held : List Byte) : ((begun (tokened held) 0 lastPart).dropPartial (sessOf (tokened held) 0 lastPart)).mod.serial.toNat = 0 := rfl
theorem tokened_signer (held : List Byte) : ((begun (tokened held) 0 lastPart).dropPartial (sessOf (tokened held) 0 lastPart)).tokenSigner .debugKey 0 = true := by
  have h : ((begun (tokened held) 0 lastPart).dropPartial (sessOf (tokened held) 0 lastPart)).sec = serving.sec := rfl
  unfold State.tokenSigner; rw [h]; decide +kernel

theorem witness_StateCommands_tokens (rest : List Byte) (l : rest.length = 4579) : ∀ k ∈ [(2 : Byte), 3], ∃ (s : State) (value bs : List Byte) (d : DictSession) (s2 : State) (n : BitVec 256) (time : Nat),
    s.Writes 0 lastPart lastPart.header.toNat 0x800004 bs value d s2 ∧ value.length = 4715 ∧ d.debugNonce = some (n, time) ∧ s2.now ≤ time + 10000000000 ∧
    value = tokenStart k ++ (rest ++ List.replicate 48 0) ∧ s2.tokenSigner .debugKey 0 = true ∧ s2.mod.serial.toNat = 0 ∧ n = 0 ∧ s2.now < 2000000 ∧ s2.power.state = .p0 ∧ s2.still = true := by
  intro k hk
  refine ⟨_, _, _, _, _, 0, 500000, tokened_writes (tokenStart k ++ rest) (by simp [tokenStart, l]), by simp [tokenStart, l], (tokened_session _).2.2, ?_, by simp, ?_⟩
  · rw [tokened_after]; decide
  · refine ⟨tokened_signer _, tokened_serial _, rfl, ?_, rfl, tokened_still _⟩
    rw [tokened_after]; decide

/-- The fields of such a token where R430 has them. -/
theorem test_token_fields : ∀ k ∈ [(2 : Byte), 3], ofLe (((tokenStart k).drop 0).take 1) = k.toNat ∧ ofLe (((tokenStart k).drop 1).take 7) = 0 ∧ ofLe (((tokenStart k).drop 8).take 8) = 2000000 ∧
    ofLe (((tokenStart k).drop 16).take 32) = 0 ∧ ofLe (((tokenStart k).drop 48).take 32) = 0 ∧ ofLe (((tokenStart k).drop 80).take 4) = 0 ∧ ofLe (((tokenStart k).drop 84).take 4) = 0 := by decide +kernel
theorem witness_EntryWrites_plain : Meets (inOp .serving) 0x103002 (leBytes 2 10000) (fun d s => (odFind 0x103002).any fun r => (s.writeEntry d {} r 0x103002 (leBytes 2 10000)).toOption.isSome) ∧
    Meets (inOp .serving) 0x103002 (leBytes 2 10001) (fun d s => (odFind 0x103002).any fun r => !(s.writeEntry d {} r 0x103002 (leBytes 2 10001)).toOption.isSome) ∧
    Meets (inOp .serving) 0x900003 (leBytes 2 2600) (fun _ _ => true) ∧ Meets (inOp .serving) 0x900003 (leBytes 2 3201) (fun _ _ => true) ∧
    Meets (inOp .serving) 0xA02001 (leBytes 4 0xFFFFFFEF) (fun _ _ => validIdent 0xFFFFFFEF) ∧ Meets (inOp .serving) 0xA02002 (leBytes 4 0xFFFFFFF0) (fun _ _ => !validIdent 0xFFFFFFF0) ∧
    (∀ n ∈ [2600, 3201, 10000, 10001], ofLe (leBytes 2 n) = n) :=
  ⟨meets (by decide +kernel), meets (by decide +kernel), meets (by decide +kernel), meets (by decide +kernel), meets (by decide +kernel), meets (by decide +kernel), by decide +kernel⟩

/-- With a live index of `n` records, alone or in a group. -/
def storing (n members : Nat) : State := let s := inOp .serving
  { s with index := { live := [{ index with img := { index.img with recordCount := n, members := members } }] } }

theorem witness_EntryWrites_sweep : Meets (storing 4 2) 0x300001 (leBytes 4 8000) (fun _ s => s.grouped) ∧
    Meets (storing (2 ^ 40) 1) 0x300001 (leBytes 4 8000) (fun _ s => !s.grouped && !s.storePasses (s.entry 0x601001) (8000 * 1000)) ∧
    Meets (storing 4 1) 0x300001 (leBytes 4 40000) (fun _ s => !s.grouped && s.scheduled && s.storePasses (s.entry 0x601001) (40000 * 1000)) ∧
    Meets ((storing 4 1).setEntry 0x601002 56980) 0x601001 (leBytes 4 1001) (fun _ s => decide (58980 < 1001 + s.entry 0x601002 + 1000)) ∧
    Meets ((storing 4 1).setEntry 0x601002 56980) 0x601001 (leBytes 4 1000) (fun _ s => decide (1000 + s.entry 0x601002 + 1000 ≤ 58980) && s.storePasses 1000 s.livePeriod
      && ({ s with adm := { s.adm with bSweepTbl := 1000, bGen := s.entry 0x601002 } } : State).ledgersHold) ∧
    Meets ((storing 4 1).setEntry 0x601001 48000) 0x601002 (leBytes 4 9981) (fun _ s => decide (58980 < 9981 + s.entry 0x601001 + 1000)) ∧
    Meets ((storing 4 1).setEntry 0x601001 48000) 0x601002 (leBytes 4 9980) (fun _ s => decide (9980 + s.entry 0x601001 + 1000 ≤ 58980)
      && ({ s with adm := { s.adm with bSweepTbl := s.entry 0x601001, bGen := 9980 } } : State).ledgersHold) :=
  ⟨meets (by decide +kernel), meets (by decide +kernel), meets (by decide +kernel), meets (by decide +kernel), meets (by decide +kernel), meets (by decide +kernel), meets (by decide +kernel)⟩

/-- Cell 15 of block 0 exists, 16 is a spare; block 0 is fenced or not. -/
theorem witness_EntryWrites_glint : Meets (inOp .serving) 0x702001 (leBytes 2 16) (fun _ _ => !cellAddrOk 16) ∧
    Meets { inOp .serving with faults := { serving.faults with fencedBlocks := [0] } } 0x702001 (leBytes 2 15) (fun _ s => cellAddrOk 15 && s.blockFenced (cellBlock 15)) ∧
    Meets (inOp .serving) 0x702001 (leBytes 2 15) (fun _ s => cellAddrOk 15 && !s.blockFenced (cellBlock 15) && !s.cellDead 15) :=
  ⟨meets (by decide +kernel), meets (by decide +kernel), meets (by decide +kernel)⟩

/-- DARK with recovery data staged, or without. -/
def recovering (bs : List Byte) : State := let s := inOp .dark
  { s with mod := { s.mod with staged := s.mod.staged.writeAll 0 bs } }

theorem witness_EntryWrites_recovery : Meets (recovering []) 0x620002 [1, 2, 3] (fun _ _ => true) ∧
    Meets (recovering [1]) 0x620003 [1] (fun _ s => s.mod.op == .dark && !s.mod.staged.isEmpty && s.setValid { signer := .root 0, digestOk := true, secVersion := 9, version := 9 }
      && !s.setValid { signer := .debugKey, digestOk := true, secVersion := 9, version := 9 }) ∧
    Meets (recovering []) 0x620003 [1] (fun _ s => s.mod.op == .dark && s.mod.staged.isEmpty) ∧ Meets (recovering []) 0x620003 [2] (fun _ s => s.mod.op == .dark) ∧
    Meets (inOp .ready) 0x620003 [2] (fun _ s => s.mod.op != .dark) ∧ Meets (recovering []) 0x703001 [15] (fun _ s => s.mod.op == .dark) :=
  ⟨meets (by decide +kernel), meets (by decide +kernel), meets (by decide +kernel), meets (by decide +kernel), meets (by decide +kernel), meets (by decide +kernel)⟩

/-- Image 3 is stored, and resident, or not. -/
def stored (used : Bool) : State := let s := inOp .serving
  { s with flash := { s.flash with stored := [{ id := 3, image := signed (.model model5), fn := 0, at_ := 0, blocks := [] }] }
           img := if used then s.img else { s.img with models := [] } }

theorem witness_EntryWrites_objects : Meets (stored true) 0x613004 (leBytes 4 4) (fun _ s => !s.flash.stored.any (·.id = 4)) ∧
    Meets (stored true) 0x613004 (leBytes 4 3) (fun _ s => s.flash.stored.any (·.id = 3) && s.imageInUse 3) ∧
    Meets (stored false) 0x613004 (leBytes 4 3) (fun _ s => s.flash.stored.any (·.id = 3) && !s.imageInUse 3) ∧
    Meets (inOp .serving) (perFn 0x8010 0) [1] (fun _ _ => true) ∧ Meets (inOp .serving) (perFn 0x8010 63) [1] (fun _ _ => true) :=
  ⟨meets (by decide +kernel), meets (by decide +kernel), meets (by decide +kernel), meets (by decide +kernel), meets (by decide +kernel)⟩

/-! ### Supply, starts, heat -/

/-- A start at phase `n`, warm or cold, out of DARK or not, after failed warm and cold ones. -/
def starting (n : Nat) (w d : Bool) (wf cf : Nat) : State := { serving with mod := { serving.mod with op := .starting, phase := n, warm := w, darkCold := d, warmFails := wf, coldFails := cf } }

theorem witness_SupplyAndStarts_supply : State.reset.mod.op = .off ∧ State.reset.mod.heldReset = false ∧ serving.mod.op ≠ .off ∧
    (∀ x ∈ [(44000, true), (62000, true), (43999, false), (62001, false)], decide (44000 ≤ x.1 ∧ x.1 ≤ 62000) = x.2) ∧
    ({ State.reset with mod := { State.reset.mod with heldReset := true } } : State).mod.heldReset = true ∧
    (let s : State := { State.reset with power := { State.reset.power with state := .p4, mv := 54000 }, dict := { State.reset.dict with held := [(0x103001, 5)] } }
     s.mod.op = .off ∧ s.power.state = .p4 ∧ s.mod.heldReset = false ∧ 44000 ≤ s.power.mv ∧ s.power.mv ≤ 62000 ∧ s.canOn = true ∧ 0x180 + s.inForce 0x103001 = 0x185) ∧
    serving.power.state ≠ .p4 := by decide +kernel

theorem witness_SupplyAndStarts_phases : (∀ n, (starting n true false 0 0).mod.op = .starting ∧ (starting n true false 0 0).mod.phase = n) ∧
    (starting 2 true false 0 0).sec.life ≠ .retired ∧ (starting 2 true false 0 0).pickSet = some 0 ∧ (starting 4 true false 0 0).diesLost = false ∧
    ({ starting 2 true false 0 0 with sec := { serving.sec with life := .retired } } : State).sec.life = .retired ∧ serving.mod.op ≠ .starting ∧
    (∃ m ∈ serving.img.models, m.imageId ∉ ([3] : List Nat)) :=
  ⟨fun _ => ⟨rfl, rfl⟩, by decide +kernel, by decide +kernel, by decide +kernel, rfl, by decide +kernel, ⟨encoder, by decide +kernel, by decide +kernel⟩⟩

theorem witness_SupplyAndStarts_failures : ∀ w d, ∀ n ∈ [1, 2], let s := starting 4 w d n (n - 1)
    s.mod.op = .starting ∧ s.mod.darkCold = d ∧ s.mod.warm = w ∧ s.mod.warmFails = n ∧ s.mod.coldFails = n - 1 := by decide +kernel

/-- R405: the third failed warm start in a row is followed by a cold one; R406: the second cold one ends in DARK. -/
theorem test_start_falls_back : gives (.startFailed 0 1) (starting 4 true false 2 0) (fun s => s.mod.op == .starting && !s.mod.warm) = true ∧
    gives (.startFailed 0 1) (starting 4 true false 1 0) (fun s => s.mod.op == .starting && s.mod.warm) = true ∧
    gives (.startFailed 0 1) (starting 4 false false 0 1) (fun s => s.mod.op == .dark) = true := by decide +kernel

theorem witness_CadenceAndHeat : sweeping serving.mod.op = true ∧ sweeping State.reset.mod.op = false ∧ serving.power.cadence.length = 32 ∧
    (let s : State := { serving with power := { serving.power with cadence := 1599 :: List.replicate 31 2000, deepDim := false }, faults := { serving.faults with recoveryEnds := 1000001 } }
     0 < s.lowCadence ∧ s.lowCadence < 1600 ∧ s.power.deepDim = false ∧ max s.now 0 < s.faults.recoveryEnds ∧ s.step.lateNs = 0) ∧
    ({ serving with power := { serving.power with cadence := List.replicate 32 1600 } } : State).lowCadence = 1600 ∧
    ({ serving with power := { serving.power with cadence := List.replicate 32 0 } } : State).lowCadence = 0 ∧
    warnings (List.replicate 32 99999) 99999 (List.replicate 24 89999) (List.replicate 32 79999) = [] ∧ warnings [] 100000 [] [] = [64] ∧
    (∀ x ∈ List.replicate 32 (119999 : Int), x < 120000) ∧ (∃ x ∈ ([120000] : List Int), 120000 ≤ x) ∧ (5999 < 6000 ∧ ¬ 6000 < 6000 ∧ 45000 < (45001 : Int)) := by
  decide +kernel

/-- R418: of the windows' counts the lowest decides; a count of 1599 is deep dimming, 1600 is not, a region at rest does not count. -/
theorem test_deep_dimming : gives (.cadenceWindow 0 (0 :: 1599 :: List.replicate 30 2000)) serving (fun s => s.power.deepDim && s.entry 0x90000B == 1) = true ∧
    gives (.cadenceWindow 0 (0 :: 1600 :: List.replicate 30 2000)) serving (fun s => !s.power.deepDim && s.entry 0x90000B == 0) = true := by decide +kernel

/-! ### Faults and flash -/

theorem witness_Detections_cells : serving.running = true ∧ residueOk (.node 1 1 3) = false ∧ cellAddrOk 15 = true ∧ cellAddrOk 0xFDCF = true ∧ serving.blockFenced (cellBlock 15) = false ∧ serving.cellDead 15 = false ∧
    (serving.tick 0).mismatchAgain 15 = false ∧
    (let s : State := { serving with faults := { serving.faults with transient := [(15, 0)] } }
     (s.tick 1000000000).mismatchAgain 15 = true ∧ (s.tick 1000000001).mismatchAgain 15 = false) ∧
    serving.physOf 15 ≠ 16 ∧ getKey serving.faults.spareOf (cellBlock 15) = none ∧
    (let s : State := { serving with faults := { serving.faults with spareOf := [(0, 15)] } }
     s.physOf 15 = 16 ∧ s.cellDead 15 = false ∧ getKey s.faults.spareOf (cellBlock 14) ≠ none) ∧
    (generating 4).seq.streams.any (fun st => st.fn = 0 && st.tag = 5) = true := by decide +kernel

theorem witness_Detections_units : (∀ b ∈ [0, 767], serving.blockFenced b = false) ∧ (∀ r ∈ [0, 31], serving.regionFenced r = false) ∧ serving.e6 = false ∧
    (serving.setEntry 0x101002 1).e6 = true ∧ (3 ∉ serving.faults.fencedDies) ∧ sweeping serving.mod.op = true ∧ serving.faults.canDown = false ∧
    ((linked lanes2).port 1).lanes.any (·.inService) = true ∧ (23 ∉ serving.faults.fencedStacks) ∧
    (∃ r ∈ (at_ { base 0x01 8 with gran := { hbm := 1 } }).reqs, r.gran.hbm ≠ 0 ∧ r.fn = 0 ∧ r.tag = 5) := by
  refine ⟨by decide +kernel, by decide +kernel, by decide +kernel, by decide +kernel, by decide +kernel, by decide +kernel, by decide +kernel, by decide +kernel, by decide +kernel,
    ⟨_, List.mem_singleton.mpr rfl, by decide +kernel⟩⟩

theorem witness_Detections_hbm : serving.model 0 = some mainModel ∧
    ({ serving with flash := { serving.flash with stored := [{ id := 3, image := signed (.model model5), fn := 0, at_ := 0, blocks := [] }] } } : State).flash.stored.any (fun x => decide (x.id = mainModel.imageId) && !x.damaged) = true ∧
    serving.flash.stored.any (fun x => decide (x.id = mainModel.imageId) && !x.damaged) = false ∧ (generating 4).reqs.any (fun r => r.gen && r.model = 0) = true ∧
    (pooled row1).pool.tables.any (fun x => x.current && x.desc.tableId = keyTable (deltaKey 8 1 0) && x.rows.any fun r => r.row = keyRow (deltaKey 8 1 0)) = true := by decide +kernel

/-- MXFP4 tile of 64 x 32 elements, ZBLK then SRUN, 42 bytes stored, TILE_ID 7: blocks 0 and 63 stored, one run of 64 scales. -/
def tileHdr : BitVec 128 := BitVec.ofNat 128
  (5 * 2 ^ 120 + 3 * 2 ^ 116 + 64 * 2 ^ 96 + 32 * 2 ^ 80 + 42 * 2 ^ 48 + 1024 * 2 ^ 32 + 7)
def tileBody : List Byte := [1, 0, 0, 0, 0, 0, 0, 0x80] ++ List.replicate 32 0x11 ++ [63, 0x7F]

theorem witness_Detections_formats : loaderOk none = false ∧ loaderOk (some tileHdr) = true ∧ copyOk tileHdr.toNat tileBody = true ∧
    copyOk (tileHdr.toNat + 2 ^ 48) (tileBody ++ [0]) = false ∧ copyOk tileHdr.toNat (tileBody.take 41) = false ∧
    partialsOk [0, BitVec.ofNat 128 (2 ^ 96)] = false ∧ partialsOk [BitVec.ofNat 128 (2 ^ 112)] = false := by decide +kernel

/-- R61: tile bytes by format and K, and of a quarter. -/
theorem test_tile_sizes : (([(1, 16), (2, 32), (3, 32), (3, 64), (4, 32), (4, 64), (5, 64), (5, 128)] : List (Nat × Nat)).map fun p =>
      tileBodyBytes (p.1 * 2 ^ 120 + p.2 * 2 ^ 96 + 32 * 2 ^ 80)) = [1024, 1024, 1056, 2112, 800, 1600, 1088, 2176] ∧
    4 * tileBodyBytes (3 * 2 ^ 120 + 16 * 2 ^ 96 + 16 * 2 ^ 80) = 1056 := by decide +kernel

/-- R91: absent blocks decode to zeros and keep their scales under ZBLK then SRUN. -/
theorem test_tile_decodes : (decodeBody tileHdr.toNat tileBody).map (fun r => (r.1.length, r.1.take 17, r.1.drop 1007 == List.replicate 1 0 ++ List.replicate 16 0x11
    ++ List.replicate 64 0x7F, r.2)) = some (1088, List.replicate 16 0x11 ++ [0], true, []) := by decide +kernel

theorem witness_Detections_starts : serving.hubRuns = true ∧ (starting 3 false false 0 0).hubRuns = true ∧
    (∀ o ∈ [OpState.dark, .retained], ({ serving with mod := { serving.mod with op := o } } : State).hubRuns = true) := by decide +kernel

/-- A glint of cell 15 and of lane 4 is running. -/
def glinting : State := { serving with faults := { serving.faults with active := some { cells := [15], lanes := [4], refs := [⟨15, false, cellAddr 200 0, cellAddr 400 3⟩] } } }

theorem witness_Detections_glints : serving.faults.active = none ∧ (∃ g, glinting.faults.active = some g ∧ 15 ∈ g.cells ∧ 4 ∈ g.lanes ∧ ∃ r ∈ g.refs, r.unit = 15 ∧ r.isLane = false) ∧ glinting.cellDead 15 = false ∧
    glinting.blockFenced (cellBlock 15) = false ∧ cellAddrOk 15 = true := ⟨by decide +kernel, ⟨_, rfl, by decide, by decide, by decide⟩, by decide +kernel⟩

/-- A request that reads vectors, or passages, of an index version whose image is stored, or not. -/
def fetching (passage kept : Bool) : State := { at_ { base 0x02 (if passage then 11 else 8) with work := { stage := if passage then 11 else 8, version := 5 } } with
  flash := { serving.flash with stored := if kept then [{ id := 6, image := signed (.index index.img), fn := 0, at_ := 0, blocks := [] }] else [] } }

theorem witness_FlashMedia_reads : ∀ p k, (fetching p k).mod.op ≠ .off ∧ ((fetching p k).req 0 5).any (fun r => readsFor r p && r.work.lostOrds == [] && r.work.readOrds == []) = true ∧
    ((fetching p k).readFrom 0 5).isSome = k := by decide +kernel

theorem witness_FlashMedia_media : serving.running = true ∧ 127 ∉ serving.flash.fencedTargets ∧ 325503 ∉ serving.flash.retired ∧ (∀ m ∈ serving.flash.map, m.sb ≠ 325503) ∧
    serving.sbUsed.contains 325503 = false ∧ 119209 < partBlocks serving.mod.part24 ∧
    (fetching true true).flash.stored.any (fun x => x.id = 6 && !(fetching true true).residentCopy x.id) = true := by decide +kernel

/-- A request that still reads in superblock 7, whose map entry has switched, and one whose reads ended. -/
def flashReading (ended : Bool) : State := { at_ { base 0x02 11 with work := { stage := 11, cands := [{ id := 3 }], readOrds := if ended then [3] else [] } } with
  flash := { serving.flash with oldReads := [(7, 0, 5)] } }

theorem witness_FlashMedia_erase : ∀ e, (flashReading e).stillRead 7 = !e ∧ (flashReading e).mod.op ≠ .off ∧ (∀ m ∈ (flashReading e).flash.map, m.sb ≠ 7) ∧
    (∀ l ∈ (flashReading e).flash.logs, l.2 ≠ 7) := by decide +kernel

/-- R372's example: LBA 1,000 in the footer of a closed superblock, in an open one, and a trim record of logical block 0. -/
def powerLoss (last : List Superblock) : FlashState := { trims := [(7000, [0])]
                                                         media := { sb := 10, runs := [{ seq := 5120, lba := 1000, units := 4, key := 1, cls := 0 }], closed := true } :: last }

theorem test_rebuild : (powerLoss [{ sb := 20, runs := [{ seq := 9031, lba := 1000, units := 4, key := 1, cls := 0 }] }]).mapped 1000 = some 20 ∧
    (powerLoss []).mapped 1000 = none ∧ (powerLoss []).newest 1000 = some (10, 5120) := by decide +kernel

/-- R363: page 1 of a COLD run of 6 read units under key slot 3 has two valid units and the next SEQ and LBA. -/
theorem test_page_header : PageRun.header { seq := 9, lba := 1000, units := 6, key := 3, cls := 0 } 1
    = word 128 [(64, 10), (24, 1004), (16, 3), (12, 3), (10, 0), (9, 0), (8, 0)] := by decide +kernel

/-- R365: a page of a HOT object below the fill count goes to a log superblock of the metadata area. -/
theorem test_hot_page : let f := ((({} : FlashState).hotWrite hotFaults 0 4).1.hotWrite hotFaults 0 4).1
    f.map.map (fun m => (m.fill, m.hot, metaTarget (sbTarget m.sb))) = [(1, true, true)] ∧ f.logs.map (fun l => metaTarget (sbTarget l.2)) = [true] ∧
    f.seq = 2 ∧ f.mapped 0 = f.logs.head?.map (·.2) := by decide +kernel

/-- A MODEL_LOAD of tag 5 with KEEP, not yet stored. -/
theorem witness_FlashMedia_writes : (at_ { base 0x20 0 with load := some { image := signed (.model model5), keep := true } }).req 0 5
    = some { base 0x20 0 with load := some { image := signed (.model model5), keep := true } } ∧
    ({ serving with faults := { serving.faults with fencedDies := [2] } } : State).faults.fencedDies = [2] ∧ 2 ∉ serving.faults.fencedDies := by
  exact ⟨by decide +kernel, rfl, by decide +kernel⟩

/-! ### The whole machine -/

/-- A NOP waits in front of the queue of a state of the right shape. -/
def waiting : State := { serving with pending := [.nop 2000000 (desc 0x00 0 0 0 0)] }

theorem witness_EveryStepGoesForward : ∃ s', Machine.step waiting = .next s' ∧ s'.now = 2000000 := ⟨_, rfl, rfl⟩

theorem witness_EveryStepKeepsShape : (∃ s', Machine.step waiting = .next s') ∧ waiting.buffersOk ∧ waiting.shapeOk ∧ State.reset.buffersOk ∧ State.reset.shapeOk := by
  refine ⟨⟨_, rfl⟩, ?_⟩
  unfold State.buffersOk State.shapeOk
  decide +kernel
/-! ### The manual's worked examples -/

/-- Module architecture, after R12: die 2, region 5, block 17, cell 9. -/
theorem test_cell_address : cellAddr 521 9 = 0xAC49 ∧ cellBlock 0xAC49 = 521 ∧ cellNo 0xAC49 = 9 ∧ cellAddrOk 0xAC49 = true ∧ 521 / 24 = 21 := by decide

/-- Worked admission of twelve streams: the capacities of the ledgers per base step at u = 0.99 and default shares. -/
theorem test_capacities : (serving.cap .genBytes).1 = 1485000000 * (serving.cap .genBytes).2 ∧ (serving.cap .handshakes).1 = 973209600 * (serving.cap .handshakes).2 ∧
    (serving.cap .tblBytes).1 = 246510000 * (serving.cap .tblBytes).2 := by decide +kernel

/-- A deep sag: at 1.25 G/s the handshake ledger scales by 0.78125; the others do not. -/
theorem test_deep_sag : let s : State := ({ serving with power := { serving.power with cadence := List.replicate 32 1250, deepDim := true } } : State).project
    (s.cap .handshakes).1 * 100000 = 973209600 * 78125 * (s.cap .handshakes).2 ∧ s.cap .genBytes = serving.cap .genBytes := by decide +kernel

/-- R125, worked check of the defaults: a full store at 24 TB/s, of the three formats; T_mrg of the ASK example, rounded up to 68 µs. -/
theorem test_sweep_bounds : (∀ x ∈ [(64, 256, 5243000, 42000), (96, 512, 6991000, 83000), (160, 1024, 8390000, 164000)],
      tStream (2 ^ 38) 24000 = 11454000 ∧ tCmp (laneRecords (2 ^ 38 / x.1) 0) x.2.1 256 = x.2.2.1 ∧ tIns 1 256 x.2.1 = x.2.2.2) ∧
    tFeed (2 ^ 38) 48000 (laneRecords (2 ^ 38 / 160) 0) 1024 256 = 8390000 ∧ tMrg = 68000 := by decide +kernel

/-- R290: 16,896 bytes over a session of PATH_NS 6,000 take 7 µs. -/
theorem test_transfer_bound : ({ sess9 with paths := [4000] } : Session).pathNs = 6000 ∧ ({ sess9 with paths := [4000] } : Session).tXfer 16896 = 7000 := by decide +kernel

/-- Cells and arithmetic, one term: 1.5 at scale 130 times −0.8125 at scale 125 is −9,984 in units of 2^-12, that is −2.4375. -/
theorem test_mx_term : (addTerm .e2m1 .e4m3 (-12) {} (130, 125, [0b0011], [0xB5])).1.acc = -9984 ∧
    finalF fp32 false (-12) { acc := -9984 } = (0xC01C0000, {}) := by decide +kernel

/-- The same section: 2^24, 1 and −2^24 give 1 in the accumulator; FP32 addition depends on the order. -/
theorem test_order : fAdd (fAdd 0x4B800000 0x3F800000) 0xCB800000 = 0 ∧ fAdd (fAdd 0x4B800000 0xCB800000) 0x3F800000 = 0x3F800000 ∧
    (finalF fp32 false 0 { acc := 2 ^ 24 + 1 - 2 ^ 24 }).1 = 0x3F800000 := by decide +kernel

/-- Ties at the K-th place: six of twelve entries, D_K 44, TIE_COUNT 9, DUP_COUNT 6, SOURCES 34. -/
def ties : MergeIn := let m1 : List (Nat × Nat × Nat) := [(42, 0x50, 37), (44, 7, 44), (44, 9, 33), (44, 0x12, 40), (44, 0x15, 52), (44, 0x20, 37)]
  let p (m : Nat) (tags : List Nat) : PartnerSrc := { member := m, shard := 3, entries := (m1.zip tags).map fun x => ⟨passageId 3 x.1.2.1, x.1.1, x.2⟩, dK := 44, tie := 3, filterPass := 0, saturated := false, clipped := false, incomplete := false }
  { k := 6, terms := 0, own := 2, member := 0, shards := [2, 3], complete := true
    lanes := (List.range 32).map fun l => { lane := l, entries := if l = 3 then [(41, 0x104), (43, 0xB20), (44, 0x1F00)] else if l = 17 then [(40, 0x2207), (44, 0xA11), (44, 0x3000)] else [] }
    partners := [p 1 (m1.map (·.2.2)), p 2 [69, 76, 65, 72, 84, 69]] }

theorem test_ties : let r := mergeQuery ties
    r.entries.map (fun e => (e.dist, e.id)) = [(40, passageId 2 0x2207), (41, passageId 2 0x104), (42, passageId 3 0x50), (43, passageId 2 0xB20), (44, passageId 2 0xA11), (44, passageId 2 0x1F00)] ∧
    (r.entries.map (·.lane)).take 3 = [17, 3, 37] ∧ r.dK = 44 ∧ r.valid = 6 ∧ r.tie = 9 ∧ r.dup = 6 ∧ r.mismatch = 0 ∧ r.sources = 34 ∧ r.saturated = false ∧ r.status = .done := by decide +kernel

/-- Packing: 1,024 tokens, 60 fixed, 40 of the user, passages of 500, 450 and 380 tokens with four tokens before and two after each.
Rank 1 takes 506, rank 2 is truncated to 412 tokens, rank 3 is left out. -/
def packing : TemplateImage := { templateId := 4, vocab := 1, segCount := 3, fixedTok := 60, returnRetr := false
                                 segs := [2 ^ 60 + 60 * 2 ^ 32, 2 * 2 ^ 60 + 200 * 2 ^ 32, 3 * 2 ^ 60 + 4 * 2 ^ 40 + 2 * 2 ^ 32 + 240], body := List.replicate 66 1 }

theorem test_packing : let p := packPrompt packing 1024 64 (List.replicate 40 7) [{ id := 1, tokens := List.replicate 500 8 }, { id := 2, tokens := List.replicate 450 9 }, { id := 3, tokens := List.replicate 380 9 }]
    p.1.length = 1024 ∧ p.2.1 = 0 ∧ p.2.2.packed = [1, 2] ∧ p.2.2.whole = 1 ∧ p.2.2.trunc = true ∧ p.2.2.omitted = 1 ∧ p.2.2.avail = 0 ∧ (p.1.filter (· = 9)).length = 412 := by decide +kernel

/-- Stop strings: the three tokens of the example, with EMIT_STOP 0 and 1. -/
theorem test_stop_string : ∀ emit, let run := fun o bs => List.foldl (OutPath.byte [[0x23, 0x23, 0x23]] 0 emit) o bs
    let a := run { held := [], utf := [] } [0x20, 0x63, 0x61, 0x66, 0xC3]
    let b := run { a with released := [] } [0xA9, 0x20, 0x23, 0x23]
    let c := run { b with released := [] } [0x23, 0x0A, 0x4E, 0x65, 0x78, 0x74]
    a = { held := [], utf := [0xC3], released := [0x20, 0x63, 0x61, 0x66] } ∧ b = { held := [0x23, 0x23], utf := [], released := [0xC3, 0xA9, 0x20] } ∧
    c = { held := [], utf := [], released := if emit then [0x23, 0x23, 0x23] else [], discarded := 5, fired := true } := by decide +kernel

/-- A tree of six nodes, GENERATED 120: the walk commits 5,117 and accepts 20,301 and 9,000, which no child carries. -/
def sixNodes : WalkIn := { gen := pay.gen, ends := [], entries := [], history := [], generated := 120, maxNew := 1000
                           tree := [⟨0, 1042, 1⟩, ⟨0, 5117, 2⟩, ⟨0, 889, 2⟩, ⟨1, 20301, 3⟩, ⟨1, 77, 3⟩, ⟨3, 413, 4⟩]
                           logits := [[(5117, 1)], [(20301, 1)], [(1, 1)], [(9000, 1)], [(1, 1)], [(1, 1)]] }

theorem test_walk : let w := walkTree sixNodes 6 0 [] 0
    w.1.map (fun t => (t.token, t.spec)) = [(5117, false), (20301, true), (9000, true)] ∧ w.2.1 = none := by decide +kernel

/-- WSUM of rows (4.0, 1.5), default and default (0.0, −1.0) under weights 0.5, 2.0 and 0.25 is (2.0, −1.5). -/
theorem test_wsum : poolRun [(0x3F000000, 0x40800000), (0x40000000, 0), (0x3E800000, 0)] = 0x40000000 ∧
    poolRun [(0x3F000000, 0x3FC00000), (0x40000000, 0xBF800000), (0x3E800000, 0xBF800000)] = 0xBFC00000 := by decide +kernel

/-- Update windows: 2^24, then +1.0 from the lower source and +2.0 from the higher, is 16,777,218.0; the other order gives 16,777,220.0. -/
theorem test_window : applyDeltas ⟨[0x4B800000], []⟩ [[0x3F800000], [0x40000000]] = ⟨[0x4B800001], []⟩ ∧
    applyDeltas ⟨[0x4B800000], []⟩ [[0x40000000], [0x3F800000]] = ⟨[0x4B800002], []⟩ ∧ combine [] [(42, [0x3F800000]), (42, [0x3F800000])] = [(42, [0x40000000#32])] := by decide +kernel

/-- Host queues: an ASK of 1,240 bytes in buffers of 1,000 and 240 bytes passes check 5; with a length of 1,300 it does not. -/
theorem test_list_lengths : check5 ⟨mkDesc 0x01 0 1 0 0 2 0 77 0 0x1000 1240 600 0 0, [word 128 [(64, 0x1000), (32, 1000)], word 128 [(64, 0x2000), (32, 240)]]⟩ = true ∧
    check5 ⟨mkDesc 0x01 0 1 0 0 2 0 77 0 0x1000 1300 600 0 0, [word 128 [(64, 0x1000), (32, 1000)], word 128 [(64, 0x2000), (32, 240)]]⟩ = false := by decide +kernel

/-- The object dictionary: station 0x21 selects slot 300 of node 5, reads 48 bytes and the rest. -/
def station (op key off : Nat) (total : Nat) (data : List Byte) : Pdu := { transport := .can, channel := 0, ident := 0x185, data := data, header := word 128 [(120, op), (104, 0x21), (72, key), (65, total / 2), (64, total / 2), (48, off), (32, total), (16, data.length)] }
def operator : State := { serving with dict := { serving.dict with held := [(0x103001, 5)], sessions := [{ transport := .can, channel := 0, station := 0x21, role := .operator }] } }
/-- The answer frame of an outcome: identifier, FIRST and LAST, OFFSET, TOTAL, LEN, STATUS. -/
def answer (s : State) : Option (Nat × Nat × Nat × Nat × Nat) := s.dict.canQueue.getLast?.map fun f => let h := ofLe (f.bytes.take 16)
  (f.kind * 128 + s.inForce 0x103001, bits h 65 64, bits h 63 48, bits h 47 32, bits h 31 16)

theorem test_can_read : gives (.write 0 (station 2 0x420007 0 2 [0x2C, 0x01])) operator (fun a => answer a == some (0x105, 0, 0, 0, 0) &&
    gives (.read 0 (station 1 0x420008 0 0 [])) { a with dict := { a.dict with canQueue := [] } } fun b => answer b == some (0x105, 1, 0, 64, 48) &&
      gives (.read 0 (station 1 0x420008 48 0 [])) { b with dict := { b.dict with canQueue := [] } } fun c => answer c == some (0x105, 2, 48, 64, 16)) = true := by decide +kernel

/-- R339's MAC rests on SHA-384: the published value of the hash of "abc" (FIPS 180). -/
theorem test_sha384 : ofLe (sha384 [0x61, 0x62, 0x63]).reverse = 0xcb00753f45a35e8bb5a03d699ac65007272c32ab0eded1631a8b605a43ff5bed8086072ba1e7cc2358baeca134c825a7 := by decide +kernel

/-- A merge that is full, one that is short, and one of no entry. -/
theorem witness_ResultEntries : (mergeQuery ties).entries.length = ties.k ∧ (mergeQuery { ties with k := 20 }).entries.length < 20 ∧
    (mergeQuery { ties with lanes := [], partners := [] }).entries = [] := by decide +kernel

/-- Of the merged entries one is returned, one is a duplicate, one is farther. -/
theorem witness_MergeTakesTheNearest : let all := laneEntries ties.own ties.member ties.lanes ++ ties.partners.flatMap (·.entries)
    (all.any fun e => (mergeQuery ties).entries.contains e) = true ∧ (all.any fun e => (mergeQuery ties).entries.any fun a => a.id = e.id && decide (a.lane < e.lane)) = true ∧
    (all.any fun e => (mergeQuery ties).entries.all fun a => decide (a.id ≠ e.id)) = true := by decide +kernel


/-- R412: P_lim at 45.0 V and at 43.0 V. -/
theorem test_bus_limit : busLimit 45000 = 2900 ∧ busLimit 43000 = 1950 := by decide

/-- R289: the HANDOFF of a 4,096-token prompt takes 16,896 bytes. -/
theorem test_handoff_length : (handoffWire 1 2 3 4 5 0 0 [] (List.replicate 4096 0)).length = 16896 := by decide +kernel

/-- R208: PROMPT of a GENERATE, two tokens by PROMPT_COUNT, begins behind the generation parameters and the text options, at byte 416. -/
theorem test_payload_cut : let x : Fetched := { desc := (desc 0x06 0 424 0 0).desc }
    (cutPayload x (List.replicate 56 0 ++ [2] ++ List.replicate 359 0 ++ [1, 0, 0, 0, 2, 0, 0, 0])).prompt = [1, 2] := by decide +kernel
end Sys2Proof.Tests
end

section
/-!
SUPPORT. The merge of a query and the bytes of its result (R127, R131, R133): what its two sorts and the removal of duplicates
give, and where each entry stands among the bytes.
-/
namespace Sys2Proof.Machine

/-! ### The sort of the model -/

theorem insertBy_perm {α : Type} (le : α → α → Bool) (a : α) (l : List α) : (insertBy le a l).Perm (a :: l) := by
  induction l with
  | nil => exact .refl _
  | cons b l ih =>
    rw [insertBy]
    split
    · exact .refl _
    · exact (ih.cons b).trans (.swap a b l)

theorem sortBy_perm {α : Type} (le : α → α → Bool) (l : List α) : (sortBy le l).Perm l := by
  induction l with
  | nil => exact .refl _
  | cons a l ih => exact (insertBy_perm le a (sortBy le l)).trans (ih.cons a)

section
variable {α : Type} {le : α → α → Bool}

theorem insertBy_pairwise (total : ∀ a b, le a b = true ∨ le b a = true)
    (trans : ∀ a b c, le a b = true → le b c = true → le a c = true) (a : α) {l : List α}
    (h : l.Pairwise fun a b => le a b = true) : (insertBy le a l).Pairwise fun a b => le a b = true := by
  induction l with
  | nil => exact List.pairwise_singleton _ a
  | cons b l ih =>
    obtain ⟨hb, hl⟩ := List.pairwise_cons.1 h
    rw [insertBy]
    split
    · next hab =>
      refine List.pairwise_cons.2 ⟨fun c hc => ?_, h⟩
      rcases List.mem_cons.1 hc with rfl | hc
      · exact hab
      · exact trans a b c hab (hb c hc)
    · next hab =>
      refine List.pairwise_cons.2 ⟨fun c hc => ?_, ih hl⟩
      rcases List.mem_cons.1 ((insertBy_perm le a l).mem_iff.1 hc) with rfl | hc
      · exact (total c b).resolve_left hab
      · exact hb c hc

theorem sortBy_pairwise (total : ∀ a b, le a b = true ∨ le b a = true)
    (trans : ∀ a b c, le a b = true → le b c = true → le a c = true) (l : List α) :
    (sortBy le l).Pairwise fun a b => le a b = true := by
  induction l with
  | nil => exact .nil
  | cons a l ih => exact insertBy_pairwise total trans a ih

end

/-! ### The two orders of the merge -/

theorem byId_iff (a b : ListEntry) : byId a b = true ↔
    a.id < b.id ∨ (a.id = b.id ∧ (a.dist < b.dist ∨ (a.dist = b.dist ∧ a.lane ≤ b.lane))) := by
  simp only [byId, Bool.or_eq_true, Bool.and_eq_true, decide_eq_true_eq]

theorem byDist_iff (a b : ListEntry) : byDist a b = true ↔ a.dist < b.dist ∨ (a.dist = b.dist ∧ a.id ≤ b.id) := by
  simp only [byDist, Bool.or_eq_true, Bool.and_eq_true, decide_eq_true_eq]

theorem sortBy_byId_pairwise (l : List ListEntry) : (sortBy byId l).Pairwise fun a b => byId a b = true :=
  sortBy_pairwise (by simp only [byId_iff]; omega) (by simp only [byId_iff]; omega) l

theorem sortBy_byDist_pairwise (l : List ListEntry) : (sortBy byDist l).Pairwise fun a b => byDist a b = true :=
  sortBy_pairwise (by simp only [byDist_iff]; omega) (by simp only [byDist_iff]; omega) l

/-! ### The removal of duplicates (R131) -/

/-- The entries that `dedup` holds, last one first, after one more. -/
def keepNew (kept : List ListEntry) (e : ListEntry) : List ListEntry :=
  match kept with
  | [] => [e]
  | k :: r => if k.id = e.id then k :: r else e :: k :: r

/-- Of an entry and a list behind it: the first entry of each run of one passage. -/
def firstOfRuns (k : ListEntry) : List ListEntry → List ListEntry
  | [] => [k]
  | e :: l => if k.id = e.id then firstOfRuns k l else k :: firstOfRuns e l

theorem firstOfRuns_cons_same {k e : ListEntry} (h : k.id = e.id) (l : List ListEntry) :
    firstOfRuns k (e :: l) = firstOfRuns k l := if_pos h

theorem firstOfRuns_cons_other {k e : ListEntry} (h : k.id ≠ e.id) (l : List ListEntry) :
    firstOfRuns k (e :: l) = k :: firstOfRuns e l := if_neg h

theorem foldl_keepNew (l : List ListEntry) (k : ListEntry) (r : List ListEntry) :
    l.foldl keepNew (k :: r) = (firstOfRuns k l).reverse ++ r := by
  induction l generalizing k r with
  | nil => rfl
  | cons e l ih =>
    rw [List.foldl_cons, keepNew]
    by_cases h : k.id = e.id
    · rw [if_pos h, ih, firstOfRuns_cons_same h]
    · rw [if_neg h, ih, firstOfRuns_cons_other h, List.reverse_cons, List.append_assoc, List.singleton_append]

/-- The counts that `dedup` carries along do not bear on what it keeps. -/
theorem dedup_fst (l : List ListEntry) : (dedup l).1 = (l.foldl keepNew []).reverse := by
  refine congrArg List.reverse (List.foldl_hom Prod.fst fun acc e => ?_).symm
  obtain ⟨kept, _, _, _⟩ := acc
  cases kept with
  | nil => rfl
  | cons k r =>
    rw [keepNew]
    by_cases h : k.id = e.id
    · simp only [h, if_true]
    · simp only [h, if_false]

theorem dedup_cons_fst (k : ListEntry) (l : List ListEntry) : (dedup (k :: l)).1 = firstOfRuns k l := by
  rw [dedup_fst, List.foldl_cons, keepNew, foldl_keepNew, List.append_nil, List.reverse_reverse]

theorem firstOfRuns_sublist (k : ListEntry) (l : List ListEntry) : (firstOfRuns k l).Sublist (k :: l) := by
  induction l generalizing k with
  | nil => exact .refl _
  | cons e l ih =>
    by_cases h : k.id = e.id
    · rw [firstOfRuns_cons_same h]
      exact (ih k).trans ((List.sublist_cons_self e l).cons_cons k)
    · rw [firstOfRuns_cons_other h]
      exact (ih e).cons_cons k

theorem exists_mem_firstOfRuns (l : List ListEntry) (k : ListEntry) {e : ListEntry} (he : e ∈ k :: l) :
    ∃ a ∈ firstOfRuns k l, a.id = e.id := by
  induction l generalizing k e with
  | nil => exact ⟨e, he, rfl⟩
  | cons b l ih =>
    by_cases h : k.id = b.id
    · rw [firstOfRuns_cons_same h]
      rcases List.mem_cons.1 he with rfl | he
      · exact ih e List.mem_cons_self
      · rcases List.mem_cons.1 he with rfl | he
        · exact h ▸ ih k List.mem_cons_self
        · exact ih k (List.mem_cons_of_mem k he)
    · rw [firstOfRuns_cons_other h]
      rcases List.mem_cons.1 he with rfl | he
      · exact ⟨e, List.mem_cons_self, rfl⟩
      · obtain ⟨a, ha, hid⟩ := ih b he
        exact ⟨a, List.mem_cons_of_mem k ha, hid⟩

/-- In a list of rising passages the runs are the passages. -/
theorem firstOfRuns_pairwise {k : ListEntry} {l : List ListEntry} (h : (k :: l).Pairwise fun a b => a.id ≤ b.id) :
    (firstOfRuns k l).Pairwise fun a b => a.id < b.id := by
  induction l generalizing k with
  | nil => exact List.pairwise_singleton _ k
  | cons e l ih =>
    obtain ⟨hk, hel⟩ := List.pairwise_cons.1 h
    by_cases hke : k.id = e.id
    · rw [firstOfRuns_cons_same hke]
      exact ih (h.sublist ((List.sublist_cons_self e l).cons_cons k))
    · rw [firstOfRuns_cons_other hke]
      refine List.pairwise_cons.2 ⟨fun a ha => ?_, ih hel⟩
      have hlt : k.id < e.id := Nat.lt_of_le_of_ne (hk e List.mem_cons_self) hke
      rcases List.mem_cons.1 ((firstOfRuns_sublist e l).mem ha) with rfl | ha
      · exact hlt
      · exact Nat.lt_of_lt_of_le hlt ((List.pairwise_cons.1 hel).1 a ha)

/-- Of every passage an entry is kept. -/
theorem exists_mem_dedup {l : List ListEntry} {e : ListEntry} (he : e ∈ l) : ∃ a ∈ (dedup l).1, a.id = e.id := by
  cases l with
  | nil => exact absurd he List.not_mem_nil
  | cons k l =>
    rw [dedup_cons_fst]
    exact exists_mem_firstOfRuns l k he

/-- Of entries sorted by passage, those kept have strictly rising passages. -/
theorem dedup_pairwise {l : List ListEntry} (h : l.Pairwise fun a b => a.id ≤ b.id) :
    (dedup l).1.Pairwise fun a b => a.id < b.id := by
  cases l with
  | nil => exact .nil
  | cons k l =>
    rw [dedup_cons_fst]
    exact firstOfRuns_pairwise h

/-! ### The merge of one query (R131) -/

/-- All entries that a merge takes in. -/
def MergeIn.all (m : MergeIn) : List ListEntry := laneEntries m.own m.member m.lanes ++ m.partners.flatMap (·.entries)

/-- One entry of each passage of a merge, in the order of the result. -/
def MergeIn.distinct (m : MergeIn) : List ListEntry := sortBy byDist (dedup (sortBy byId m.all)).1

@[simp] theorem mergeQuery_k (m : MergeIn) : (mergeQuery m).k = m.k := rfl

theorem mergeQuery_entries (m : MergeIn) : (mergeQuery m).entries = m.distinct.take m.k := rfl

theorem mergeQuery_dK (m : MergeIn) : (mergeQuery m).dK = ((mergeQuery m).entries.getLast?.map (·.dist)).getD 0xFFFF := rfl

theorem mergeQuery_length_le (m : MergeIn) : (mergeQuery m).entries.length ≤ m.k :=
  List.length_take_le _ _

theorem exists_mem_distinct {m : MergeIn} {e : ListEntry} (he : e ∈ m.all) : ∃ a ∈ m.distinct, a.id = e.id := by
  obtain ⟨a, ha, hid⟩ := exists_mem_dedup ((sortBy_perm byId m.all).mem_iff.2 he)
  exact ⟨a, (sortBy_perm byDist _).mem_iff.2 ha, hid⟩

/-- A result with room left holds every passage. -/
theorem mergeQuery_entries_of_short {m : MergeIn} (h : (mergeQuery m).entries.length < m.k) :
    (mergeQuery m).entries = m.distinct := by
  rw [mergeQuery_entries] at h ⊢
  exact List.take_of_length_le (by rw [List.length_take] at h; omega)

/-- The two sorts together: distinct passages make the order of (DIST, PASSAGE_ID) strict. -/
theorem distinct_pairwise (m : MergeIn) :
    m.distinct.Pairwise fun a b => a.dist < b.dist ∨ (a.dist = b.dist ∧ a.id < b.id) := by
  have hid : (sortBy byId m.all).Pairwise fun a b => a.id ≤ b.id :=
    (sortBy_byId_pairwise m.all).imp fun h => by rw [byId_iff] at h; omega
  have hne : (dedup (sortBy byId m.all)).1.Pairwise fun a b => a.id ≠ b.id := (dedup_pairwise hid).imp Nat.ne_of_lt
  have hne' : m.distinct.Pairwise fun a b => a.id ≠ b.id := hne.perm (sortBy_perm byDist _).symm Ne.symm
  exact ((sortBy_byDist_pairwise _).and hne').imp fun ⟨h, hne⟩ => by rw [byDist_iff] at h; omega

theorem mergeQuery_pairwise (m : MergeIn) :
    (mergeQuery m).entries.Pairwise fun a b => a.dist < b.dist ∨ (a.dist = b.dist ∧ a.id < b.id) :=
  (distinct_pairwise m).sublist (List.take_sublist _ _)

/-! ### The bytes of a result (R133) -/

@[simp] theorem leBytes_length (n v : Nat) : (leBytes n v).length = n := by
  induction n generalizing v with
  | zero => rfl
  | succ n ih => rw [leBytes, List.length_cons, ih]

/-- A block of a concatenation of blocks of one length stands at that length times its place. -/
theorem flatten_block {α : Type} {n : Nat} {bs : List (List α)} (hn : ∀ b ∈ bs, b.length = n) {i : Nat} {b : List α}
    (h : bs[i]? = some b) : (bs.flatten.drop (n * i)).take n = b := by
  induction bs generalizing i with
  | nil => cases h
  | cons c bs ih =>
    obtain ⟨hc, hbs⟩ := List.forall_mem_cons.1 hn
    cases i with
    | zero =>
      obtain rfl : c = b := Option.some.inj h
      rw [Nat.mul_zero, List.drop_zero, List.flatten_cons, List.take_left' hc]
    | succ i =>
      have hdrop : (c :: bs).flatten.drop (n * (i + 1)) = bs.flatten.drop (n * i) := by
        rw [List.flatten_cons, Nat.mul_succ, Nat.add_comm, ← List.drop_drop, List.drop_left' hc]
      rw [hdrop]
      exact ih hbs h

/-- The K entries of a result as blocks of 16 bytes: the valid ones, then sentinels. -/
def RetrResult.blocks (r : RetrResult) : List (List Byte) :=
  (r.entries.map fun e => leBytes 16 e.encode) ++ List.replicate (r.k - r.entries.length) (leBytes 16 sentinel)

theorem RetrResult.bytes_eq (r : RetrResult) (tag : Nat) : r.bytes tag = leBytes 64 (r.header tag) ++ r.blocks.flatten := by
  rw [RetrResult.bytes, RetrResult.blocks, List.flatten_append, List.flatMap_def, List.append_assoc]

theorem RetrResult.length_of_mem_blocks {r : RetrResult} {b : List Byte} (h : b ∈ r.blocks) : b.length = 16 := by
  rcases List.mem_append.1 h with h | h
  · obtain ⟨e, -, rfl⟩ := List.mem_map.1 h
    exact leBytes_length _ _
  · rw [List.eq_of_mem_replicate h, leBytes_length]

theorem RetrResult.bytes_length (r : RetrResult) (tag : Nat) :
    (r.bytes tag).length = 64 + 16 * max r.entries.length r.k := by
  have hsum : r.blocks.map List.length = List.replicate r.blocks.length 16 :=
    List.eq_replicate_iff.2 ⟨List.length_map _, List.forall_mem_map.2 fun _ => RetrResult.length_of_mem_blocks⟩
  have hblocks : r.blocks.length = max r.entries.length r.k := by
    simp only [RetrResult.blocks, List.length_append, List.length_map, List.length_replicate]
    omega
  rw [r.bytes_eq, List.length_append, leBytes_length, List.length_flatten, hsum, hblocks, List.sum_replicate_nat, Nat.mul_comm]

/-- Entry `i` of a result takes the 16 bytes from 64 + 16 `i` on. -/
theorem RetrResult.bytes_block {r : RetrResult} (tag : Nat) {i : Nat} {b : List Byte} (h : r.blocks[i]? = some b) :
    ((r.bytes tag).drop (64 + 16 * i)).take 16 = b := by
  have hdrop : (r.bytes tag).drop (64 + 16 * i) = r.blocks.flatten.drop (16 * i) := by
    rw [r.bytes_eq, ← List.drop_drop, List.drop_left' (leBytes_length _ _)]
  rw [hdrop]
  exact flatten_block (fun _ => RetrResult.length_of_mem_blocks) h

theorem RetrResult.bytes_entry {r : RetrResult} (tag : Nat) {i : Nat} {e : ListEntry} (h : r.entries[i]? = some e) :
    ((r.bytes tag).drop (64 + 16 * i)).take 16 = leBytes 16 e.encode := by
  obtain ⟨hi, -⟩ := List.getElem?_eq_some_iff.1 h
  refine RetrResult.bytes_block tag ?_
  rw [RetrResult.blocks, List.getElem?_append_left (by rwa [List.length_map]), List.getElem?_map, h, Option.map_some]

theorem RetrResult.bytes_sentinel {r : RetrResult} (tag : Nat) {i : Nat} (hlo : r.entries.length ≤ i) (hhi : i < r.k) :
    ((r.bytes tag).drop (64 + 16 * i)).take 16 = leBytes 16 sentinel := by
  refine RetrResult.bytes_block tag ?_
  rw [RetrResult.blocks, List.getElem?_append_right (by rwa [List.length_map]), List.length_map,
    List.getElem?_replicate_of_lt (by omega)]

/-! ### The statement -/

/-- Settles O29: the two sorts and the removal of duplicates give the order and the passages, the blocks of the result its bytes. -/
theorem resultEntries : Obligations.ResultEntries := by
  rintro m tag _ rfl _ rfl
  refine ⟨?length, mergeQuery_length_le m, mergeQuery_pairwise m, fun _ _ => RetrResult.bytes_entry tag, ?all,
    fun _ => RetrResult.bytes_sentinel tag, ?last, ?none⟩
  case length => rw [RetrResult.bytes_length, mergeQuery_k, Nat.max_eq_right (mergeQuery_length_le m)]
  case all => exact fun h e he => mergeQuery_entries_of_short h ▸ exists_mem_distinct he
  case last => intro e h; rw [mergeQuery_dK, h, Option.map_some, Option.getD_some]
  case none => intro h; rw [mergeQuery_dK, h, List.getLast?_nil, Option.map_none, Option.getD_none]

end Sys2Proof.Machine
end

section
/-!
SUPPORT. The status with which a stream ends (R193, R227): what the walk makes of its last token, what the output path makes of the
walk's tokens, and what a control token does to it.
-/
namespace Sys2Proof.Machine

/-! ### The status of a walk -/

/-- The status that the last of a walk's tokens gives the stream when no stop string fires: an ending token before the length limit
(R193). -/
def WalkIn.statusAfter (x : WalkIn) (toks : List TokenOut) : Option Status :=
  toks.getLast?.bind fun o =>
    if x.ends.contains o.token then some .stoppedToken
    else if x.maxNew ≤ x.generated + toks.length then some .stoppedLength
    else none

theorem WalkIn.statusAfter_of_getLast? {x : WalkIn} {toks : List TokenOut} {o : TokenOut} (h : toks.getLast? = some o) :
    x.statusAfter toks = if x.ends.contains o.token then some .stoppedToken
      else if x.maxNew ≤ x.generated + toks.length then some .stoppedLength else none := by
  rw [WalkIn.statusAfter, h, Option.bind_some]

/-- A walk goes on only after a token that gives no status: it ends with the status of its last token, unless a position has no
token to take (R220). -/
theorem walkTree_status {x : WalkIn} {fuel v fb : Nat} {acc : List TokenOut} (hacc : x.statusAfter acc = none) :
    (walkTree x fuel v acc fb).2.1 = some .internalFault ∨
      (walkTree x fuel v acc fb).2.1 = x.statusAfter (walkTree x fuel v acc fb).1 := by
  induction fuel generalizing v fb acc with
  | zero => exact .inr hacc.symm
  | succ fuel ih =>
    rw [walkTree]
    split
    · exact .inl rfl
    · next d _ =>
      have hlast := WalkIn.statusAfter_of_getLast? (x := x) (List.getLast?_concat (l := acc)
        (a := { token := d.token, spec := !acc.isEmpty, forced := d.forced, sel := d.sel, left := d.left }))
      split at hlast
      · next hends =>
        simp only [if_pos hends]
        exact .inr hlast.symm
      split at hlast
      · next hends hmax =>
        simp only [if_neg hends, if_pos hmax]
        exact .inr hlast.symm
      · next hends hmax =>
        simp only [if_neg hends, if_neg hmax]
        cases childWith x v d.token with
        | none => exact .inr hlast.symm
        | some c => exact ih hlast

/-! ### The delivery of a walk -/

/-- A stream changed by its own slot is found changed. -/
theorem State.modStream_streamAt (s : State) (n : Nat) {g : Stream → Stream} (hslot : ∀ st, (g st).slot = st.slot) :
    (s.modStream n g).streamAt n = (s.streamAt n).map g := by
  have hkey : ((fun st : Stream => decide (st.slot = n)) ∘ fun st => if st.slot = n then g st else st) =
      fun st => decide (st.slot = n) := by
    funext st
    by_cases h : st.slot = n <;> simp [h, hslot]
  rw [State.streamAt, State.modStream, List.find?_map, hkey, State.streamAt]
  cases hfind : s.seq.streams.find? fun st => st.slot = n with
  | none => rfl
  | some st =>
    have hst : st.slot = n := by simpa using List.find?_some hfind
    rw [Option.map_some, Option.map_some, if_pos hst]

@[simp] theorem State.count_streamAt (s : State) (k n m : Nat) : (s.count k n).streamAt m = s.streamAt m := by
  rw [State.streamAt, State.count_seq, State.streamAt]

theorem State.pathOver_eq_runOut {s : State} {st : Stream} {r : Request} {m : ModelRes} {voc : VocabRes}
    (hmodel : s.model (s.slot st.slot).model = some m) (hvoc : s.vocabOf r m.img.vocab = some voc) (toks : List TokenOut) :
    s.pathOver st r toks = runOut voc.img (stopsOf r.payload.opts r.payload.stops) (oOutMode r.payload.opts)
      (oEmitStop r.payload.opts) { held := st.held, utf := st.utf } 0 toks := by
  rw [State.pathOver, hmodel, Option.bind_some, hvoc]

/-- A delivery leaves at the stream's slot the tokens up to where a stop string fires, with its status before the walk's. -/
theorem State.deliver_streamAt_out {s : State} {w : WalkOut} {st : Stream} (hst : s.streamAt w.st.slot = some st) :
    ∃ st' o, (s.deliver w).streamAt w.st.slot = some st' ∧ st'.out = some o ∧
      o.tokens = w.toks.take (s.pathOver w.st w.req w.toks).2 ∧
      o.final = if (s.pathOver w.st w.req w.toks).1.fired then some .stoppedString else w.final := by
  simp only [State.deliver, State.count_streamAt]
  rw [State.modStream_streamAt, hst, Option.map_some]
  · exact ⟨_, _, rfl, rfl, rfl, rfl⟩
  · exact fun _ => rfl

/-! ### Control tokens -/

theorem OutPath.token_of_isControl {v : VocabImage} {id : Nat} (h : isControl v id = true) (stops : List (List Byte)) (mode : Nat)
    (emit : Bool) (o : OutPath) : o.token v stops mode emit id = o := by
  rw [OutPath.token, outBytes, if_pos h, List.foldl_nil]

/-! ### The statement -/

/-- Settles O25: the walk's status is that of its last token, a stop string's goes before it at the delivery, and a control token
has no bytes. -/
theorem endStatusOrder : Obligations.EndStatusOrder := by
  refine ⟨?walk, ?delivery, fun _ _ _ _ _ o h => OutPath.token_of_isControl h _ _ _ o⟩
  case walk =>
    intro x fuel v fb toks fin o hwalk hfault hlast
    have hfin : fin = x.statusAfter toks := by
      have hstatus := walkTree_status (x := x) (fuel := fuel) (v := v) (acc := []) (fb := 0) rfl
      rw [hwalk] at hstatus
      exact hstatus.resolve_left hfault
    rw [hfin, WalkIn.statusAfter_of_getLast? hlast]
    exact ⟨fun hends => if_pos hends, fun hends hmax => by rw [hends, if_neg Bool.false_ne_true, if_pos hmax]⟩
  case delivery =>
    intro s w st m voc y hst hmodel hvoc hy
    rw [hy, ← State.pathOver_eq_runOut hmodel hvoc]
    exact State.deliver_streamAt_out hst

end Sys2Proof.Machine
end

section
/-!
SUPPORT. The heartbeat of CAN FD (R349): when one is due, and what it does to the transmit queue.
-/
namespace Sys2Proof.Machine

/-! ### Time: the conditions of a heartbeat and its frame do not read the clock -/

@[simp] theorem State.tick_canOn (s : State) (t : Nat) : (s.tick t).canOn = s.canOn := rfl
@[simp] theorem State.tick_hubRuns (s : State) (t : Nat) : (s.tick t).hubRuns = s.hubRuns := rfl
@[simp] theorem State.tick_heartbeatFrame (s : State) (t : Nat) : (s.tick t).heartbeatFrame = s.heartbeatFrame := rfl

/-! ### The heartbeat -/

/-- The new frame goes to the end, after the first frame of kind 7 has left its place. -/
theorem State.heartbeatDue_of_on {s : State} (hperiod : s.entry 0x103002 ≠ 0) (hcan : s.canOn = true) (hhub : s.hubRuns = true) :
    s.heartbeatDue = { s with dict := { s.dict with canQueue := takeKind 7 s.dict.canQueue ++ [s.heartbeatFrame] } } := by
  rw [State.heartbeatDue, if_neg (by simp [hperiod, hcan, hhub])]

theorem State.heartbeatDue_of_off {s : State} (h : s.entry 0x103002 = 0 ∨ s.canOn = false ∨ s.hubRuns = false) :
    s.heartbeatDue = s := by
  rw [State.heartbeatDue, if_pos]
  rcases h with hperiod | hcan | hhub
  · simp [hperiod]
  · simp [hcan]
  · simp [hhub]

theorem exec_canHeartbeat (t : Nat) (s : State) : exec (.canHeartbeat t) s = .next (s.tick t).heartbeatDue := rfl

/-! ### The statement -/

/-- Settles O52: the conditions and the frame are the same before and after the clock's change, and one of the two cases of a due
heartbeat applies. -/
theorem heartbeatFrame : Obligations.HeartbeatFrame := by
  intro s t
  rw [exec_canHeartbeat]
  refine ⟨?on, ?off⟩
  case on =>
    intro hperiod hcan hhub
    rw [State.heartbeatDue_of_on (by rwa [State.tick_entry]) (by rwa [State.tick_canOn]) (by rwa [State.tick_hubRuns]),
      State.tick_heartbeatFrame, State.tick_dict]
    rfl
  case off =>
    intro h
    rw [State.heartbeatDue_of_off (by rwa [State.tick_entry, State.tick_canOn, State.tick_hubRuns])]

end Sys2Proof.Machine
end
